-- ==== Sys2Proof/Word.lean ====
section
/-! DEFINITION. The byte type and its plainest arithmetic (spec/00_scope.md R7, R8). -/

namespace Sys2Proof

/-- A byte: an unsigned integer 0 to 255, bit 0 the least significant (R7). -/
abbrev Byte := BitVec 8

/-- A bit of the spec as a byte: "a bool of the source maps to a bit with true = 1, false = 0" (R7). -/
def Byte.ofBit (b : Bool) : Byte := bif b then 1#8 else 0#8

/-- The high nibble `v[7:4]` of a byte (R7). -/
def Byte.hi (v : Byte) : Nat := v.toNat / 16

/-- The low nibble `v[3:0]` of a byte (R7). -/
def Byte.lo (v : Byte) : Nat := v.toNat % 16

end Sys2Proof
end

