-- ==== Sys2Proof/Config.lean ====
section
/-! DEFINITION. What the spec leaves open: the implementation parameter `RX_BUF_MAX` and the free value of a
failed send. Neither has a body, so no proof can see a value of it and every claim holds for all of them. The
literals the spec FIXES (R5) stand in Machine/Params.lean. `CRC_PLACEMENT` (only value APPEND) and `STRICT_FF`
(only value false) of R6 are fixed by the spec and are built into the definitions. -/

namespace Sys2Proof

/-- The capacity `RX_BUF_MAX` of the receive buffer: "a natural number at least 8, or unbounded" (R6, R143).
`bounded k` is the capacity `8 + k`, so that no value below 8 can be written. -/
inductive BufferCapacity where
  | unbounded
  | bounded (k : Nat)
  deriving DecidableEq, Repr, Inhabited

/-- `RX_BUF_MAX` as the spec writes it: none when unbounded. -/
def BufferCapacity.max : BufferCapacity → Option Nat
  | .unbounded => none
  | .bounded k => some (8 + k)

/-- OPEN parameter `RX_BUF_MAX` of this hardware (R6, D6): fixed for the machine, its value not known to any
proof. Log entry 3. -/
opaque Config.rxBufMax : BufferCapacity

/-- FREE VALUE: how many bytes of the frame reach the line when the `n`-th failed send fails, "an unspecified
prefix of T, possibly empty, possibly all of it" (R214, U8). A number past the frame's length means all of it.
Log entry 4. -/
opaque Config.sentBeforeFault : Nat → Nat

end Sys2Proof
end

