-- ==== Sys2Proof/Machine/Params.lean ====
section
/-! DEFINITION. The parameters the source fixes, as the table of spec/00_scope.md R5 gives them. They stand in a
file under Machine/ so that "a correction is one edit" (U14). `CRC_WIDTH` = 8 is the width of `Byte`; `W_DIGITS`,
`C_DIGITS` and the populated counter indices are used by Machine/Bcd.lean and Machine/Operands.lean. -/

namespace Sys2Proof

/-- `MARK`: start marker byte and each of the two end marker bytes. -/
def MARK : Byte := 0xFF#8
/-- `MIN_FRAME`: least length of a valid frame in bytes. -/
def MIN_FRAME : Nat := 6
/-- `CRC_POLY`: constant XORed into the CRC accumulator. -/
def CRC_POLY : Byte := 0x69#8
/-- `CRC_INIT`: initial value of the CRC accumulator. -/
def CRC_INIT : Byte := 0x00#8
/-- `SLOT`: the checksum-slot byte that closes every response body. -/
def SLOT : Byte := 0x00#8
/-- `W_DIGITS`: decimal digits of the weight packing. -/
def W_DIGITS : Nat := 6
/-- `W_MAX`: greatest weight magnitude in tenths. -/
def W_MAX : Nat := 999999
/-- `C_DIGITS`: decimal digits of the counter packing. -/
def C_DIGITS : Nat := 10
/-- `C_MAX`: greatest counter value that fits the counter packing. -/
def C_MAX : Nat := 9999999999
/-- `DP`: decimal-point position reported in CON bits 2 to 0. -/
def DP : Byte := 0x01#8
/-- `COP_SN`: serial number query. -/
def COP_SN : Byte := 0xA1#8
/-- `COP_NET`: weight, NET mode. -/
def COP_NET : Byte := 0xC2#8
/-- `COP_GROSS`: weight, GROSS mode. -/
def COP_GROSS : Byte := 0xC3#8
/-- `COP_STATUS`: status bits. -/
def COP_STATUS : Byte := 0xBF#8
/-- `COP_COUNTER`: counter query. -/
def COP_COUNTER : Byte := 0xC8#8
/-- The populated counter index that selects `DS.cnt4`. -/
def NW_CNT4 : Byte := 0x04#8
/-- The populated counter index that selects `DS.cnt8`. -/
def NW_CNT8 : Byte := 0x08#8

end Sys2Proof
end

