-- ==== Sys2Proof/Machine/FrameCodec.lean ====
section
/-! DEFINITION. The Frame Codec (spec/42_frame.md): the frame predicate, the byte-serial boundary detector, the same
detector as a function of a buffer, and the serializer. Pure functions; the receiver step of
Machine/Session.lean applies the detector to `rxbuf`. -/

namespace Sys2Proof

/-- The element `s[i]` of a byte sequence, counted from 0 (R8). The spec indexes only where the element exists
(R51); past the end this reads 0x00, which no rule uses. -/
def byteAt (s : List Byte) (i : Nat) : Byte := s.getD i 0#8

/-- `s[n-2] = 0xFF and s[n-1] = 0xFF` with `n` at least `MIN_FRAME`: the trailing-pair test of R140 and R142. -/
def closes (s : List Byte) : Bool :=
  decide (MIN_FRAME ≤ s.length) && byteAt s (s.length - 1) == MARK && byteAt s (s.length - 2) == MARK

/-- `IsFrame(s)`, the structurally valid sequences (R140). -/
def isFrame (s : List Byte) : Bool := closes s && byteAt s 0 == MARK

/-- `n = RX_BUF_MAX` (R143). The first test holds of every admissible capacity, which is at least 8 (R6). -/
def BufferCapacity.reached (c : BufferCapacity) (n : Nat) : Bool :=
  decide (8 ≤ n) &&
    match c with
    | .unbounded => false
    | .bounded k => n == 8 + k

/-- `RxDetect(x)` on the buffer contents `buf` (R142): the new buffer and the completed frame, if any. Completion is
tested before overflow (R143). -/
def rxDetect (cap : BufferCapacity) (buf : List Byte) (x : Byte) : List Byte × Option (List Byte) :=
  bif buf.isEmpty && x != MARK then ([], none)
  else bif closes (buf ++ [x]) then ([], some (buf ++ [x]))
  else bif cap.reached (buf.length + 1) then ([], none)
  else (buf ++ [x], none)

/-- The detector drops bytes as malformed at this step, in the two ways of R211: (1) a byte other than 0xFF is offered
to an empty buffer; (2) the buffer reaches `RX_BUF_MAX` without completing. A sequence that starts with 0xFF and has
not yet ended is incomplete, not malformed. -/
def dropsMalformed (cap : BufferCapacity) (buf : List Byte) (x : Byte) : Bool :=
  bif buf.isEmpty && x != MARK then true
  else !closes (buf ++ [x]) && cap.reached (buf.length + 1)

/-- `RxDetect` folded over a sequence of bytes: the frames in order and what the buffer holds afterwards. -/
def detectAll (cap : BufferCapacity) : List Byte → List Byte → List (List Byte) × List Byte
  | buf, [] => ([], buf)
  | buf, x :: xs =>
    let d := rxDetect cap buf x
    let r := detectAll cap d.1 xs
    (d.2.toList ++ r.1, r.2)

/-- The outcomes of `tryExtractFrame` (R144). -/
inductive Extract where
  | frame (F rest : List Byte)
  | incomplete (pending : List Byte)
  deriving DecidableEq, Repr

/-- `RxDetect` folded over a sequence from the buffer contents `buf` "until the first `Some(F)`" (R144): the frame and
the bytes after it, or what the buffer holds in the end. -/
def extractFrom (cap : BufferCapacity) : List Byte → List Byte → Extract
  | buf, [] => .incomplete buf
  | buf, x :: xs =>
    match rxDetect cap buf x with
    | (_, some F) => .frame F xs
    | (buf', none) => extractFrom cap buf' xs

/-- `tryExtractFrame(buffer)`: the fold from an empty buffer, "with a finite one, fold rule R142 literally" (R144). -/
def tryExtractFrame (cap : BufferCapacity) (buffer : List Byte) : Extract := extractFrom cap [] buffer

/-- The pseudocode of R144 for an unbounded buffer, by its two least indices: `s` the first 0xFF, `e` the first index
at least `s+5` at which a pair of 0xFF ends. -/
def cutFirstFrame (buffer : List Byte) : Extract :=
  let s := buffer.findIdx (fun b => b == MARK)
  if s = buffer.length then .incomplete []
  else
    match (List.range buffer.length).find?
        (fun e => decide (s + 5 ≤ e) && byteAt buffer (e - 1) == MARK && byteAt buffer e == MARK) with
    | none => .incomplete (buffer.drop s)
    | some e => .frame ((buffer.take (e + 1)).drop s) (buffer.drop (e + 1))

/-- `buildFrame(address, command, payload, checksumByte)` (R150). -/
def buildFrame (address command : Byte) (payload : List Byte) (checksumByte : Byte) : List Byte :=
  [MARK, address, command] ++ payload ++ [checksumByte, MARK, MARK]

end Sys2Proof
end

