-- ==== Sys2Proof/Syntax.lean ====
section
/-! DEFINITION. The instructions: request frames (spec/00_scope.md R2, spec/30_encoding.md R71), one constructor per
row of spec/opcode_table.json. -/

namespace Sys2Proof

/-- A structurally valid request frame `FF adr COP f3 tail.. FF FF`, sorted by the row of the opcode table it
matches. `adr` is `F[1]`; `f3` is `F[3]` (it exists in every frame, R51); `tail` is `F[4 .. n-3]`, empty in a 6-byte
frame. Nothing but COP and, for 0xC8, `F[3]` is decoded (R71), but every byte is kept, because `EV_RX_FRAME`
carries the whole frame (R220). -/
inductive Instr where
  /-- `SNQ`, COP 0xA1: serial number query (R163). -/
  | snq (adr f3 : Byte) (tail : List Byte)
  /-- `WNET`, COP 0xC2: weight, NET mode (R164). -/
  | wnet (adr f3 : Byte) (tail : List Byte)
  /-- `WGRS`, COP 0xC3: weight, GROSS mode (R167). -/
  | wgrs (adr f3 : Byte) (tail : List Byte)
  /-- `STQ`, COP 0xBF: status bits (R168). -/
  | stq (adr f3 : Byte) (tail : List Byte)
  /-- `CNTQ`, COP 0xC8, NW = `F[3]` = 4: the populated counter `DS.cnt4` (R169). -/
  | cntq4 (adr : Byte) (tail : List Byte)
  /-- `CNTQ`, COP 0xC8, NW = `F[3]` = 8: the populated counter `DS.cnt8` (R169). -/
  | cntq8 (adr : Byte) (tail : List Byte)
  /-- `CNTQ`, COP 0xC8, any other NW = `F[3]`: "no data" (R170). -/
  | cntqOther (adr nw : Byte) (tail : List Byte)
  /-- `NOP`, every other COP: no response (R172). -/
  | nop (adr cop f3 : Byte) (tail : List Byte)
  deriving DecidableEq, Repr

/-- The bytes `F[4 .. n-3]` of the request. -/
def Instr.tail : Instr → List Byte
  | .snq _ _ t => t
  | .wnet _ _ t => t
  | .wgrs _ _ t => t
  | .stq _ _ t => t
  | .cntq4 _ t => t
  | .cntq8 _ t => t
  | .cntqOther _ _ t => t
  | .nop _ _ _ t => t

end Sys2Proof
end

