-- ==== Sys2Proof/WellFormed.lean ====
section
/-! DEFINITION. Which terms of `Instr` stand for a request the detector can deliver. Two checks: the term's row is
the row its bytes select (R79, R170, R172), and the frame is not cut before its end (R145). -/

namespace Sys2Proof

/-- COP is one of the five answered command bytes (R79). -/
def isCommand (cop : Byte) : Bool :=
  cop == COP_SN || cop == COP_NET || cop == COP_GROSS || cop == COP_STATUS || cop == COP_COUNTER

/-- NW selects a populated counter (R35, R52). -/
def isPopulated (nw : Byte) : Bool := nw == NW_CNT4 || nw == NW_CNT8

/-- The constructor is the one its own bytes select: an unpopulated NW for the general `CNTQ` row, a COP other than
the five for the default row (R79: rows in increasing priority). -/
def Instr.rowOk : Instr → Bool
  | .snq _ _ _ => true
  | .wnet _ _ _ => true
  | .wgrs _ _ _ => true
  | .stq _ _ _ => true
  | .cntq4 _ _ => true
  | .cntq8 _ _ => true
  | .cntqOther _ nw _ => !isPopulated nw
  | .nop _ cop _ _ => !isCommand cop

/-- Two adjacent marker bytes occur in the sequence. -/
def hasMarkPair : List Byte → Bool
  | a :: b :: rest => (a == MARK && b == MARK) || hasMarkPair (b :: rest)
  | _ => false

/-- No trailing pair completes the frame before its last byte: positions 4 to `n-2` hold no two adjacent 0xFF
(position `n-2` is the first end marker byte). Otherwise the detector cuts the frame short (R145, R250). -/
def Instr.uncut (i : Instr) : Bool := !hasMarkPair (i.tail ++ [MARK])

/-- A request the detector can deliver and whose bytes select its constructor. -/
def Instr.wellFormed (i : Instr) : Bool := i.rowOk && i.uncut

end Sys2Proof
end

