-- ==== Sys2Proof/Decode.lean ====
section
/-! DEFINITION. Decoding a request frame (spec/30_encoding.md R71, R79 and spec/opcode_table.json), total on any
bytes and rejecting by name; the encoder, written from the same formats; and the two definitions by which the
host lays out a row of the opcode table. -/

namespace Sys2Proof

/-- Why bytes are no request. -/
inductive DecodeReject where
  /-- Fewer than `MIN_FRAME` bytes (R140). -/
  | tooShort
  /-- The first byte is not 0xFF (R140). -/
  | noStartMarker
  /-- The last two bytes are not 0xFF, 0xFF (R140). -/
  | noEndMarker
  /-- A stream holds no complete frame; what the detector keeps of it (R144). -/
  | incomplete (pending : List Byte)
  deriving DecidableEq, Repr

/-- The instruction of the decoded fields: one comparison of COP against five constants, and for 0xC8 of NW against
the two populated indices (R79). -/
def instrOfFields (adr cop f3 : Byte) (tail : List Byte) : Instr :=
  if cop = COP_SN then .snq adr f3 tail
  else if cop = COP_NET then .wnet adr f3 tail
  else if cop = COP_GROSS then .wgrs adr f3 tail
  else if cop = COP_STATUS then .stq adr f3 tail
  else if cop = COP_COUNTER then
    if f3 = NW_CNT4 then .cntq4 adr tail
    else if f3 = NW_CNT8 then .cntq8 adr tail
    else .cntqOther adr f3 tail
  else .nop adr cop f3 tail

/-- Decode a byte sequence that should be exactly one frame (R140, R71). -/
def decodeFrame (F : List Byte) : Except DecodeReject Instr :=
  if F.length < MIN_FRAME then .error .tooShort
  else if byteAt F 0 ≠ MARK then .error .noStartMarker
  else if byteAt F (F.length - 1) ≠ MARK ∨ byteAt F (F.length - 2) ≠ MARK then .error .noEndMarker
  else .ok (instrOfFields (byteAt F 1) (byteAt F 2) (byteAt F 3) ((F.drop 4).take (F.length - 6)))

/-- Decode the first request of a byte stream: cut it at the markers as a receive buffer of the given capacity does
(R144), decode the frame, and give the rest of the stream. -/
def decode (cap : BufferCapacity) (buffer : List Byte) : Except DecodeReject (Instr × List Byte) :=
  match tryExtractFrame cap buffer with
  | .incomplete pending => .error (.incomplete pending)
  | .frame F rest =>
    match decodeFrame F with
    | .ok i => .ok (i, rest)
    | .error r => .error r

/-- The request frame `FF adr COP f3 tail FF FF` (R70, R71). -/
def requestFrame (adr cop f3 : Byte) (tail : List Byte) : List Byte :=
  [MARK, adr, cop, f3] ++ tail ++ [MARK, MARK]

/-- The bytes of an instruction (R70, R71, R79). -/
def encode : Instr → List Byte
  | .snq adr f3 tail => requestFrame adr COP_SN f3 tail
  | .wnet adr f3 tail => requestFrame adr COP_NET f3 tail
  | .wgrs adr f3 tail => requestFrame adr COP_GROSS f3 tail
  | .stq adr f3 tail => requestFrame adr COP_STATUS f3 tail
  | .cntq4 adr tail => requestFrame adr COP_COUNTER NW_CNT4 tail
  | .cntq8 adr tail => requestFrame adr COP_COUNTER NW_CNT8 tail
  | .cntqOther adr nw tail => requestFrame adr COP_COUNTER nw tail
  | .nop adr cop f3 tail => requestFrame adr cop f3 tail

/-! ### The opcode table as data -/

/-- The rows of spec/opcode_table.json by name, one per constructor of `Instr`. -/
inductive Row where
  | snq | wnet | wgrs | stq | cntq4 | cntq8 | cntqOther | nop
  deriving DecidableEq, Repr

/-- The row a constructor stands for. -/
def Instr.row : Instr → Row
  | .snq _ _ _ => .snq
  | .wnet _ _ _ => .wnet
  | .wgrs _ _ _ => .wgrs
  | .stq _ _ _ => .stq
  | .cntq4 _ _ => .cntq4
  | .cntq8 _ _ => .cntq8
  | .cntqOther _ _ _ => .cntqOther
  | .nop _ _ _ _ => .nop

/-- One row: its `match` and `mask` over the 32-bit decode word. -/
structure TableRow where
  pattern : BitVec 32
  mask : BitVec 32
  row : Row
  deriving DecidableEq, Repr

/-- spec/opcode_table.json in increasing `priority`. -/
def opcodeTable : List TableRow :=
  [ ⟨0xFF00A100#32, 0xFF00FF00#32, .snq⟩,
    ⟨0xFF00C200#32, 0xFF00FF00#32, .wnet⟩,
    ⟨0xFF00C300#32, 0xFF00FF00#32, .wgrs⟩,
    ⟨0xFF00BF00#32, 0xFF00FF00#32, .stq⟩,
    ⟨0xFF00C804#32, 0xFF00FFFF#32, .cntq4⟩,
    ⟨0xFF00C808#32, 0xFF00FFFF#32, .cntq8⟩,
    ⟨0xFF00C800#32, 0xFF00FF00#32, .cntqOther⟩,
    ⟨0xFF000000#32, 0xFF000000#32, .nop⟩ ]

/-- "the first whose `(word & mask) = match` applies" (R79). -/
def selectRow (word : BitVec 32) : Option Row :=
  (opcodeTable.find? (fun r => word &&& r.mask == r.pattern)).map TableRow.row

/-- The decode word `F[0]<<24 | F[1]<<16 | F[2]<<8 | F[3]` (R79). -/
def decodeWord (F : List Byte) : BitVec 32 :=
  byteAt F 0 ++ byteAt F 1 ++ byteAt F 2 ++ byteAt F 3

/-! ### A table word as a frame -/

/-- The `k` low bytes of `w`, the most significant first: the decode word holds `F[0]` in its top byte (R79). -/
def wordBytes (k w : Nat) : List Byte :=
  (List.range k).reverse.map (fun j => BitVec.ofNat 8 (w >>> (8 * j)))

/-- The shortest frame whose first bytes are the table word's: the word's bytes, zero bytes up to the four the table
describes, and the end marker that closes every frame. Log entry 7. -/
def tableFrame (nbits w : Nat) : List Byte :=
  wordBytes (nbits / 8) w ++ List.replicate (4 - nbits / 8) 0#8 ++ [MARK, MARK]

/-- What the decoder reads from a word of the opcode table. -/
def decodeTableWord (nbits w : Nat) : Option Instr :=
  match decodeFrame (tableFrame nbits w) with
  | .ok i => some i
  | .error _ => none

end Sys2Proof
end

