-- ==== Sys2Proof/Machine/Bcd.lean ====
section
/-! DEFINITION. The BCD Codec (spec/41_bcd.md R119 to R129). The decoders are part of the unit; no command uses
them. -/

namespace Sys2Proof.Machine

open Sys2Proof

/-- The two error outcomes of the BCD functions (R122, R127, R129). Results of a function, not events (R130). -/
inductive BcdError where
  | bcdOverflow
  | bcdInvalid
  deriving DecidableEq, Repr

/-- `digit_k(v, N)`: digit `k` of the `N`-digit decimal string of `v`, digit 0 the most significant (R119). -/
def digit (v N k : Nat) : Nat := v / 10 ^ (N - 1 - k) % 10

/-- `pack(h, l) = (h << 4) | l` for decimal digits `h`, `l` (R119). -/
def pack (h l : Nat) : Byte := (BitVec.ofNat 8 h <<< 4) ||| BitVec.ofNat 8 l

/-- Both nibbles of the byte are decimal digits (R119). -/
def validBcd (b : Byte) : Bool := decide (b.hi ≤ 9) && decide (b.lo ≤ 9)

/-- The number the two digits of a BCD byte stand for. -/
def unpack (b : Byte) : Nat := 10 * b.hi + b.lo

/-- `WeightEncode(m)` (R120, R122). -/
def weightEncode (m : Nat) : Except BcdError (List Byte) :=
  if m > W_MAX then .error .bcdOverflow
  else
    let d := digit m W_DIGITS
    .ok [pack (d 4) (d 5), pack (d 2) (d 3), pack (d 0) (d 1)]

/-- `WeightDecode([b0, b1, b2])` (R123, R129). -/
def weightDecode (b0 b1 b2 : Byte) : Except BcdError Nat :=
  bif validBcd b0 && validBcd b1 && validBcd b2 then
    .ok (100000 * b2.hi + 10000 * b2.lo + 1000 * b1.hi + 100 * b1.lo + 10 * b0.hi + b0.lo)
  else .error .bcdInvalid

/-- `CounterEncode(c)` (R125, R127). -/
def counterEncode (c : Nat) : Except BcdError (List Byte) :=
  if c > C_MAX then .error .bcdOverflow
  else
    let d := digit c C_DIGITS
    .ok ((List.range 5).map (fun i => pack (d ((4 - i) * 2)) (d ((4 - i) * 2 + 1))))

/-- `CounterDecode([c0, c1, c2, c3, c4])` (R126, R129). -/
def counterDecode (c0 c1 c2 c3 c4 : Byte) : Except BcdError Nat :=
  bif validBcd c0 && validBcd c1 && validBcd c2 && validBcd c3 && validBcd c4 then
    .ok (unpack c0 + unpack c1 * 100 + unpack c2 * 100 ^ 2 + unpack c3 * 100 ^ 3 + unpack c4 * 100 ^ 4)
  else .error .bcdInvalid

end Sys2Proof.Machine
end

