-- ==== Sys2Proof/Machine/Crc.lean ====
section
/-! DEFINITION. The CRC Codec (spec/40_crc.md R100 to R104). -/

namespace Sys2Proof.Machine

open Sys2Proof

/-- The two working registers of the CRC engine (R21, R22). -/
structure CrcEngine where
  crc : BitVec 8
  wk : BitVec 8
  deriving DecidableEq, Repr

/-- `CrcBit(crc, wk)`: rotate `wk` left, shift its old bit 7 into `crc`, and XOR the constant if the old bit 7 of
`crc` was 1 (R100). -/
def crcBit (g : CrcEngine) : CrcEngine :=
  let carryIn : Byte := Byte.ofBit g.wk.msb
  let t : Byte := (g.crc <<< 1) ||| carryIn
  { crc := bif g.crc.msb then t ^^^ CRC_POLY else t
    wk := (g.wk <<< 1) ||| carryIn }

/-- `n` repetitions of `CrcBit`. -/
def crcBits : Nat → CrcEngine → CrcEngine
  | 0, g => g
  | n + 1, g => crcBits n (crcBit g)

/-- Feed one byte to the engine: load `wk`, repeat `CrcBit` 8 times (R101). -/
def crcFeed (g : CrcEngine) (b : Byte) : CrcEngine := crcBits 8 { crc := g.crc, wk := b }

/-- `CrcByte(crc, b)` (R101). -/
def crcByte (crc b : Byte) : Byte := (crcFeed { crc := crc, wk := 0x00#8 } b).crc

/-- A whole checksum computation on the engine: clear the accumulator, then feed the bytes in increasing index order
(R102, R242). -/
def crcRun (g : CrcEngine) (bytes : List Byte) : CrcEngine :=
  bytes.foldl crcFeed { crc := CRC_INIT, wk := g.wk }

/-- `checksum(bytes)` (R102). -/
def checksum (bytes : List Byte) : Byte := (crcRun { crc := CRC_INIT, wk := 0x00#8 } bytes).crc

end Sys2Proof.Machine
end

