-- ==== Sys2Proof/Machine/State.lean ====
section
/-! DEFINITION. The state of the responder core (spec/10_state.md R20 to R36), the events it emits, the inputs its
four agents offer it, the reasons a step can stop, and the state after reset. Plain data throughout. -/

namespace Sys2Proof.Machine

open Sys2Proof

/-! ### Device State bank -/

/-- The Device State register bank `DS`, nine registers written by the host only (R30 to R36). -/
structure DeviceState where
  /-- `addr`, the device's own address (R30). -/
  addr : BitVec 8
  /-- `sn`, the serial number: SN2 = bits 23..16, SN1 = 15..8, SN0 = 7..0 (R32). -/
  sn : BitVec 24
  /-- `w10`, the weight in tenths, two's complement (R31). -/
  w10 : BitVec 21
  /-- `settling` (R33). -/
  settling : Bool
  /-- `overload` (R33). -/
  overload : Bool
  /-- `netMode`, held and read by no rule (R33). -/
  netMode : Bool
  /-- `status`, the eight flags in the bit positions of the STATUS byte (R34). -/
  status : BitVec 8
  /-- `cnt4` (R35). -/
  cnt4 : BitVec 34
  /-- `cnt8` (R35). -/
  cnt8 : BitVec 34
  deriving DecidableEq, Repr

/-- DESIGN CHOICE (log entry 1, unsafe): the spec leaves every Device State field unspecified at reset (R41); the
model's reset state holds zero in each. -/
def DeviceState.zero : DeviceState :=
  { addr := 0, sn := 0, w10 := 0, settling := false, overload := false, netMode := false, status := 0,
    cnt4 := 0, cnt8 := 0 }

/-- The operand of a host UPDATE: new values for any subset of the nine fields (R192). -/
structure Update where
  addr : Option (BitVec 8) := none
  sn : Option (BitVec 24) := none
  w10 : Option (BitVec 21) := none
  settling : Option Bool := none
  overload : Option Bool := none
  netMode : Option Bool := none
  status : Option (BitVec 8) := none
  cnt4 : Option (BitVec 34) := none
  cnt8 : Option (BitVec 34) := none
  deriving DecidableEq, Repr

/-! ### Errors and events -/

/-- The kinds of transport fault: "open/read/write failure" (R214). -/
inductive TransportFaultKind where
  | onOpen
  | onRead
  | onWrite
  deriving DecidableEq, Repr

/-- The five error classes (a) to (e) (R210). -/
inductive ErrorClass where
  /-- (a) malformed frame -/
  | malformedFrame
  /-- (b) unsupported command -/
  | unsupportedCommand
  /-- (c) unsupported counter index -/
  | unsupportedIndex
  /-- (d) transport fault -/
  | transportFault
  /-- (e) invalid numeric input -/
  | invalidNumeric
  deriving DecidableEq, Repr

/-- The detail an `EV_ERROR` records: the kind of a transport fault, or the command byte of class (e) (R210). -/
inductive ErrorDetail where
  | kind (k : TransportFaultKind)
  | cop (c : Byte)
  deriving DecidableEq, Repr

/-- The events of R220. -/
inductive Event where
  /-- `EV_RX_FRAME(F)` -/
  | rxFrame (F : List Byte)
  /-- `EV_TX_FRAME(T)` -/
  | txFrame (T : List Byte)
  /-- `EV_HANDSHAKE` -/
  | handshake
  /-- `EV_ERROR(class, detail)` -/
  | error (cls : ErrorClass) (detail : ErrorDetail)
  /-- `EV_TIMEOUT` -/
  | timeout
  deriving DecidableEq, Repr

/-! ### Inputs -/

/-- Baud rates of the transport configuration (R6, R265). -/
inductive BaudRate where
  | b9600 | b19200 | b38400 | b57600 | b115200
  deriving DecidableEq, Repr

/-- Parities of the transport configuration (R6, R265). -/
inductive Parity where
  | none | odd | even | mark | space
  deriving DecidableEq, Repr

/-- The operand of START, "which the core passes to the transport and otherwise ignores" (R190): port identifier,
baud rate, parity; 8 data bits and 1 stop bit are fixed (R6). Not state of the core (R20). Log entry 13. -/
structure TransportConfig where
  port : String
  baud : BaudRate
  parity : Parity
  deriving DecidableEq, Repr

/-- One step offered by an agent (R13, R199). -/
inductive Input where
  /-- host START (R190) -/
  | start (cfg : TransportConfig)
  /-- host STOP (R191) -/
  | stop
  /-- host UPDATE (R192) -/
  | update (u : Update)
  /-- the next byte of the receive stream arrives (R195, R198) -/
  | rx (x : Byte)
  /-- the timeout watch evaluates the handshake timeout after its window (R224) -/
  | timeoutDiag
  /-- the transport reports a fault (R214) -/
  | transportFault (k : TransportFaultKind)
  deriving DecidableEq, Repr

/-! ### The machine state -/

/-- The complete state (R20): `(open, hs, rxbuf, DS, crc, wk)` and the output streams `tx`, `ev`; then three fields
of the model's own: the agents' pending steps in their interleaved order (R199, log entry 2), whether the transport
fails the next send (R214, log entry 4), and the index of the next free value (log entry 4). -/
structure State where
  /-- `open` (R24): the link session exists and the transport is open. -/
  isOpen : Bool
  /-- `hs` (R25): the handshake of this session is complete. -/
  hs : Bool
  /-- `rxbuf` (R27): the receive buffer. -/
  rxbuf : List Byte
  /-- `DS` (R30 to R35). -/
  ds : DeviceState
  /-- `crc` (R21): the CRC accumulator. -/
  crc : BitVec 8
  /-- `wk` (R22): the working copy of the byte in the CRC engine. -/
  wk : BitVec 8
  /-- `tx` (R28): the transmit stream, first byte first. -/
  tx : List Byte
  /-- `ev` (R28): the event stream, first event first. -/
  ev : List Event
  /-- MODEL'S OWN: the steps the agents will take, in the order of their interleaving, next first. -/
  inputs : List Input
  /-- MODEL'S OWN: the transport will fail the next send. -/
  sendFails : Bool
  /-- MODEL'S OWN: how many free values have been used. -/
  freeIdx : Nat
  deriving DecidableEq, Repr

/-- Why a step ends in a fault. No instruction raises one: "Nothing in this core is fatal to the process" (R217). -/
inductive Fault where
  /-- Raised by the receiver step (Machine/Session.lean `rxByte`) when the bytes the detector closes do not start
  with 0xFF. That happens only from a buffer that breaks the invariant of R27, which no run reaches. Safe: the spec's
  dispatcher takes structurally valid frames only (R160). -/
  | notAFrame
  deriving DecidableEq, Repr

/-- Why a step is refused. -/
inductive Refusal where
  /-- An instruction without a meaning: raised by no arm. -/
  | notModelled (mnemonic : String)
  /-- Raised by the host step START, also in its failing form, while the link is open: "The model gives it no
  meaning: it is refused" (R193, U5). Safe. -/
  | startWhileOpen
  deriving DecidableEq, Repr

/-- The launch state of R41 with the Device State as an argument: every other field at its reset value (R40). The
model's own fields: no pending input, no send fault, no free value used. -/
def State.launch (ds : DeviceState) : State :=
  { isOpen := false, hs := false, rxbuf := [], ds := ds, crc := 0x00#8, wk := 0x00#8, tx := [], ev := [],
    inputs := [], sendFails := false, freeIdx := 0 }

/-- The state after reset, before the first host operation (R40, R41, R240); Device State by log entry 1. -/
def State.reset : State := State.launch DeviceState.zero

end Sys2Proof.Machine
end

