-- ==== Sys2Proof/Machine/Operands.lean ====
section
/-! DEFINITION. The operands of the commands: the fields of the request (spec/30_encoding.md R71, R77) and the values
read from a snapshot of the Device State bank (spec/10_state.md R31, R32, R35). -/

namespace Sys2Proof.Machine

open Sys2Proof

/-- The command byte `F[2]` of a request (R71). -/
def reqCop (F : List Byte) : Byte := byteAt F 2

/-- The counter index `NW = F[3]`, used as it is (R77). -/
def reqNw (F : List Byte) : Byte := byteAt F 3

/-- The weight magnitude `m = |w10|` in tenths, an unbounded non-negative integer (R121). -/
def DeviceState.magnitude (S : DeviceState) : Nat := S.w10.toInt.natAbs

/-- `w10 < 0`; there is no negative zero (R31). -/
def DeviceState.negative (S : DeviceState) : Bool := decide (S.w10.toInt < 0)

/-- The serial number bytes `[SN2, SN1, SN0]` (R32, R54). -/
def DeviceState.snBytes (S : DeviceState) : List Byte :=
  [S.sn.extractLsb' 16 8, S.sn.extractLsb' 8 8, S.sn.extractLsb' 0 8]

/-- `CounterLookup(S, nw)`: index 4 and index 8 hold a counter, every other byte value is "no data" (R35, R52). -/
def counterLookup (S : DeviceState) (nw : Byte) : Option Nat :=
  if nw = NW_CNT4 then some S.cnt4.toNat
  else if nw = NW_CNT8 then some S.cnt8.toNat
  else none

end Sys2Proof.Machine
end

