-- ==== Sys2Proof/Machine/Flags.lean ====
section
/-! DEFINITION. The flag bytes of the responses: CON (spec/30_encoding.md R73, spec/43_dispatch.md R165) and STATUS
(R74, R34), and the session phase the two session bits stand for (spec/44_session.md R194). -/

namespace Sys2Proof.Machine

open Sys2Proof

/-- `ConByte(S, net)`: bit 7 sign, bit 6 zero, bit 5 the command's NET bit, bit 4 settling, bit 3 overload, bits 2 to
0 the decimal point (R165, R73). `netMode` is not read (R33). -/
def conByte (S : DeviceState) (net : Bool) : Byte :=
  (Byte.ofBit S.negative <<< 7) ||| (Byte.ofBit net <<< 5) ||| (Byte.ofBit S.settling <<< 4)
    ||| (Byte.ofBit S.overload <<< 3) ||| DP

/-- The eight flags of the STATUS byte (R34, R74). -/
inductive StatusFlag where
  | reweighing | error | stopMode | cycleComplete | paused | loading | unloading | onPass
  deriving DecidableEq, Repr

/-- The bit position of a flag in the STATUS byte (R74). -/
def StatusFlag.bit : StatusFlag → Nat
  | .reweighing => 7
  | .error => 6
  | .stopMode => 5
  | .cycleComplete => 4
  | .paused => 3
  | .loading => 2
  | .unloading => 1
  | .onPass => 0

/-- One flag of the register `DS.status` (R34). -/
def DeviceState.flag (S : DeviceState) (f : StatusFlag) : Bool := S.status.getLsbD f.bit

/-- The STATUS byte: "The byte equals the register `DS.status`" (R74). -/
def statusByte (S : DeviceState) : Byte := S.status

/-- The session phases of R194. -/
inductive Phase where
  | closed
  | awaitingHandshake
  | handshakeComplete
  deriving DecidableEq, Repr

/-- The phase as a function of `open` and `hs` (R194). -/
def State.phase (s : State) : Phase :=
  bif s.isOpen then (bif s.hs then .handshakeComplete else .awaitingHandshake) else .closed

end Sys2Proof.Machine
end

