-- ==== Sys2Proof/Machine/Dispatcher.lean ====
section
/-! DEFINITION. The Command Dispatcher and response builder (spec/43_dispatch.md R160 to R172): pure functions of one
snapshot of Device State and the request frame. -/

namespace Sys2Proof.Machine

open Sys2Proof

/-- The result of `Dispatch` (R160). A response carries the frame to send and the CRC engine as the computation of
its checksum left it. -/
inductive Reply where
  | respond (T : List Byte) (engine : CrcEngine)
  | noResponse
  /-- error class (e) with the command byte (R215) -/
  | error (cop : Byte)
  deriving DecidableEq, Repr

/-- The body of a response: ADR, COP echoed, the data, the slot byte (R72, R161). -/
def responseBody (S : DeviceState) (F data : List Byte) : List Byte :=
  [S.addr, reqCop F] ++ data ++ [SLOT]

/-- `Assemble(S, F, data)` (R161): the checksum of the body (R104) and the built frame (R150). -/
def assemble (S : DeviceState) (F data : List Byte) : Reply :=
  let engine := crcRun { crc := CRC_INIT, wk := 0x00#8 } (responseBody S F data)
  .respond (buildFrame S.addr (reqCop F) (data ++ [SLOT]) engine.crc) engine

/-- `SNQ(S, F)` (R163). -/
def snq (S : DeviceState) (F : List Byte) : Reply := assemble S F S.snBytes

/-- The weight commands: they differ in CON bit 5 only (R164, R167). Out of budget is error class (e) (R166). -/
def weightReply (net : Bool) (S : DeviceState) (F : List Byte) : Reply :=
  match weightEncode S.magnitude with
  | .error _ => .error (reqCop F)
  | .ok bcd => assemble S F (bcd ++ [conByte S net])

/-- `WNET(S, F)` (R164). -/
def wnet (S : DeviceState) (F : List Byte) : Reply := weightReply true S F

/-- `WGRS(S, F)` (R167). -/
def wgrs (S : DeviceState) (F : List Byte) : Reply := weightReply false S F

/-- `STQ(S, F)` (R168). -/
def stq (S : DeviceState) (F : List Byte) : Reply := assemble S F [statusByte S]

/-- `CNTQ(S, F)`: the index test first, then the budget of the selected counter (R169 to R171, R218). -/
def cntq (S : DeviceState) (F : List Byte) : Reply :=
  match counterLookup S (reqNw F) with
  | none => assemble S F [reqNw F]
  | some c =>
    match counterEncode c with
    | .error _ => .error (reqCop F)
    | .ok bcd => assemble S F ([reqNw F] ++ bcd)

/-- `NOP(S, F)` (R172). -/
def nop (_S : DeviceState) (_F : List Byte) : Reply := .noResponse

/-- `Dispatch(S, F)`: one comparison of `F[2]` against five constants (R160). -/
def dispatch (S : DeviceState) (F : List Byte) : Reply :=
  if reqCop F = COP_SN then snq S F
  else if reqCop F = COP_NET then wnet S F
  else if reqCop F = COP_GROSS then wgrs S F
  else if reqCop F = COP_STATUS then stq S F
  else if reqCop F = COP_COUNTER then cntq S F
  else nop S F

/-- The error class of a completed frame, in the fixed order of R218: the command byte, then for 0xC8 the index, then
the digit budget; at most one applies. Class (a) is none of them: bytes that are no frame never reach the dispatcher. -/
def errorClassOf (S : DeviceState) (F : List Byte) : Option ErrorClass :=
  if reqCop F = COP_SN ∨ reqCop F = COP_STATUS then none
  else if reqCop F = COP_NET ∨ reqCop F = COP_GROSS then
    if S.magnitude > W_MAX then some .invalidNumeric else none
  else if reqCop F = COP_COUNTER then
    match counterLookup S (reqNw F) with
    | none => some .unsupportedIndex
    | some c => if c > C_MAX then some .invalidNumeric else none
  else some .unsupportedCommand

/-- The error class that the arrival of the byte `x` settles, structural validity first (R218): (a) when the detector
drops bytes as malformed (R211), the class of the frame when one completes (R212, R213, R215), and none while a frame
is incomplete. Class (d) is the transport's (R214). -/
def errorClassOfByte (cap : BufferCapacity) (S : DeviceState) (buf : List Byte) (x : Byte) : Option ErrorClass :=
  bif dropsMalformed cap buf x then some .malformedFrame
  else
    match (rxDetect cap buf x).2 with
    | some F => errorClassOf S F
    | none => none

end Sys2Proof.Machine
end

