-- ==== Sys2Proof/Machine/Ops.lean ====
section
/-! DEFINITION. The named operations over the state: events, the output streams, the snapshot, errors (the exception
entry of this hardware), the dispatch step, and the host's register writes. -/

namespace Sys2Proof.Machine

open Sys2Proof

/-- `emit E` (R8): append an event. -/
def State.emit (e : Event) (s : State) : State := { s with ev := s.ev ++ [e] }

/-- Append bytes to the transmit stream in index order (R151). -/
def State.appendTx (bs : List Byte) (s : State) : State := { s with tx := s.tx ++ bs }

/-- The CRC engine's registers after a computation (R21, R22). Log entry 8. -/
def State.loadEngine (g : CrcEngine) (s : State) : State := { s with crc := g.crc, wk := g.wk }

/-- `Snapshot(DS)`: the whole bank at one instant (R58). -/
def State.snapshot (s : State) : DeviceState := s.ds

/-- "if hs = 0: hs <- 1 ; emit EV_HANDSHAKE" (R196, R25). -/
def State.markHandshake (s : State) : State :=
  bif s.hs then s else ({ s with hs := true } : State).emit .handshake

/-! ### Errors: the exception entry and return of this hardware

"An error saves no state, switches no mode, masks nothing and transfers control nowhere. Its whole effect is the row
of rule R210" (R216); "There is no return instruction because nothing was entered" (R217). -/

/-- The numeric code of a class, 1 to 5 for (a) to (e) (R210). -/
def ErrorClass.code : ErrorClass → Nat
  | .malformedFrame => 1
  | .unsupportedCommand => 2
  | .unsupportedIndex => 3
  | .transportFault => 4
  | .invalidNumeric => 5

/-- The classes whose row of R210 has an event: (d) and (e) only. -/
def ErrorClass.reported : ErrorClass → Bool
  | .malformedFrame => false
  | .unsupportedCommand => false
  | .unsupportedIndex => false
  | .transportFault => true
  | .invalidNumeric => true

/-- An error of a class with its detail: the event column of R210. -/
def State.raiseError (c : ErrorClass) (d : ErrorDetail) (s : State) : State :=
  bif c.reported then s.emit (.error c d) else s

/-! ### Sending -/

/-- The write fault of R214 in place of `Tx(T) ; emit EV_TX_FRAME(T)`: an unspecified number of bytes of `T` reaches
`tx`, then `EV_ERROR(4, write)`. The transport's fault is used up, and so is one free value. Log entry 4. -/
def State.failSend (T : List Byte) (s : State) : State :=
  ({ s with sendFails := false, freeIdx := s.freeIdx + 1 } : State).appendTx (T.take (Config.sentBeforeFault s.freeIdx))
    |>.raiseError .transportFault (.kind .onWrite)

/-- `Tx(T) ; emit EV_TX_FRAME(T)` (R151, R196), or the write fault that the transport puts in its place (R214). -/
def State.send (T : List Byte) (s : State) : State :=
  bif s.sendFails then s.failSend T else (s.appendTx T).emit (.txFrame T)

/-! ### The dispatch step -/

/-- What becomes of the dispatcher's result (the case analysis of R196). -/
def State.conclude (r : Reply) (s : State) : State :=
  match r with
  | .respond T engine => (s.loadEngine engine).send T
  | .noResponse => s
  | .error cop => s.raiseError .invalidNumeric (.cop cop)

/-- `DispatchStep(F)` (R196) with the command's rule as an argument: log the frame, mark the handshake, take one
snapshot, build the reply, conclude. One atomic step (R62). -/
def State.dispatchStep (command : DeviceState → List Byte → Reply) (F : List Byte) (s : State) : State :=
  let logged := (s.emit (.rxFrame F)).markHandshake
  logged.conclude (command logged.snapshot F)

/-! ### Host writes -/

/-- The fields of UPDATE written over the bank, all at once; fields not named keep their values (R192). -/
def DeviceState.apply (u : Update) (S : DeviceState) : DeviceState :=
  { addr := u.addr.getD S.addr
    sn := u.sn.getD S.sn
    w10 := u.w10.getD S.w10
    settling := u.settling.getD S.settling
    overload := u.overload.getD S.overload
    netMode := u.netMode.getD S.netMode
    status := u.status.getD S.status
    cnt4 := u.cnt4.getD S.cnt4
    cnt8 := u.cnt8.getD S.cnt8 }

/-- UPDATE of the bank (R192). -/
def State.updateDs (u : Update) (s : State) : State := { s with ds := s.ds.apply u }

/-- The writes of START: a new session with nothing received (R190, R241). -/
def State.openSession (s : State) : State := { s with isOpen := true, hs := false, rxbuf := [] }

/-- The write of STOP (R191). -/
def State.closeSession (s : State) : State := { s with isOpen := false }

/-- Write the receive buffer (R27). -/
def State.setRxbuf (b : List Byte) (s : State) : State := { s with rxbuf := b }

/-- The transport will fail the next send (R214, log entry 4). -/
def State.armSendFault (s : State) : State := { s with sendFails := true }

/-- The pending steps of the agents (R199, log entry 2). -/
def State.setInputs (l : List Input) (s : State) : State := { s with inputs := l }

end Sys2Proof.Machine
end

