-- ==== Sys2Proof/Machine/Commands.lean ====
section
/-! DEFINITION. The meaning of every instruction: the dispatch step (spec/44_session.md R196) of its frame with the
rule of its command (spec/43_dispatch.md). Each is one atomic step and always ends in a next state. -/

namespace Sys2Proof.Machine

open Sys2Proof

/-- `SNQ`, COP 0xA1 (R163, R196). -/
def execSnq (adr f3 : Byte) (tail : List Byte) (s : State) : Host.Outcome State Fault Refusal :=
  .next (s.dispatchStep snq (requestFrame adr COP_SN f3 tail))

/-- `WNET`, COP 0xC2 (R164, R166, R196). -/
def execWnet (adr f3 : Byte) (tail : List Byte) (s : State) : Host.Outcome State Fault Refusal :=
  .next (s.dispatchStep wnet (requestFrame adr COP_NET f3 tail))

/-- `WGRS`, COP 0xC3 (R167, R166, R196). -/
def execWgrs (adr f3 : Byte) (tail : List Byte) (s : State) : Host.Outcome State Fault Refusal :=
  .next (s.dispatchStep wgrs (requestFrame adr COP_GROSS f3 tail))

/-- `STQ`, COP 0xBF (R168, R196). -/
def execStq (adr f3 : Byte) (tail : List Byte) (s : State) : Host.Outcome State Fault Refusal :=
  .next (s.dispatchStep stq (requestFrame adr COP_STATUS f3 tail))

/-- `CNTQ` with NW = 4 (R169, R171, R196). -/
def execCntq4 (adr : Byte) (tail : List Byte) (s : State) : Host.Outcome State Fault Refusal :=
  .next (s.dispatchStep cntq (requestFrame adr COP_COUNTER NW_CNT4 tail))

/-- `CNTQ` with NW = 8 (R169, R171, R196). -/
def execCntq8 (adr : Byte) (tail : List Byte) (s : State) : Host.Outcome State Fault Refusal :=
  .next (s.dispatchStep cntq (requestFrame adr COP_COUNTER NW_CNT8 tail))

/-- `CNTQ` with any other NW (R170, R196). -/
def execCntqOther (adr nw : Byte) (tail : List Byte) (s : State) : Host.Outcome State Fault Refusal :=
  .next (s.dispatchStep cntq (requestFrame adr COP_COUNTER nw tail))

/-- `NOP`, every other COP (R172, R196). -/
def execNop (adr cop f3 : Byte) (tail : List Byte) (s : State) : Host.Outcome State Fault Refusal :=
  .next (s.dispatchStep nop (requestFrame adr cop f3 tail))

end Sys2Proof.Machine
end

