-- ==== Sys2Proof/Machine/Dispatch.lean ====
section
/-! DEFINITION. One arm per constructor of `Instr` (spec/43_dispatch.md R160). -/

namespace Sys2Proof.Machine

open Sys2Proof

def exec (i : Instr) (s : State) : Host.Outcome State Fault Refusal :=
  match i with
  | .snq adr f3 tail => Sys2Proof.Machine.execSnq adr f3 tail s
  | .wnet adr f3 tail => Sys2Proof.Machine.execWnet adr f3 tail s
  | .wgrs adr f3 tail => Sys2Proof.Machine.execWgrs adr f3 tail s
  | .stq adr f3 tail => Sys2Proof.Machine.execStq adr f3 tail s
  | .cntq4 adr tail => Sys2Proof.Machine.execCntq4 adr tail s
  | .cntq8 adr tail => Sys2Proof.Machine.execCntq8 adr tail s
  | .cntqOther adr nw tail => Sys2Proof.Machine.execCntqOther adr nw tail s
  | .nop adr cop f3 tail => Sys2Proof.Machine.execNop adr cop f3 tail s

end Sys2Proof.Machine
end

