-- ==== Sys2Proof/Machine/Session.lean ====
section
/-! DEFINITION. The steps of the agents (spec/44_session.md R190 to R199, spec/60_exceptions.md R214, R224): host
START, STOP, UPDATE; the receiver; the timeout watch; the transport's faults. -/

namespace Sys2Proof.Machine

open Sys2Proof

/-- START (R190). START while the link is open has no meaning (R193). The transport configuration is passed to the
transport and otherwise ignored. -/
def hostStart (_cfg : TransportConfig) (s : State) : Host.Outcome State Fault Refusal :=
  bif s.isOpen then .refused .startWhileOpen else .next s.openSession

/-- STOP (R191): legal in every phase. -/
def hostStop (s : State) : Host.Outcome State Fault Refusal := .next s.closeSession

/-- UPDATE (R192): legal in every phase, validates nothing. -/
def hostUpdate (u : Update) (s : State) : Host.Outcome State Fault Refusal := .next (s.updateDs u)

/-- Decode a completed frame and run it (R195, R160). -/
def runFrame (F : List Byte) (s : State) : Host.Outcome State Fault Refusal :=
  match decodeFrame F with
  | .ok i => exec i s
  | .error _ => .fault .notAFrame

/-- The byte `x` arrives from the transport. While the link is closed it is lost (R198). Otherwise `RxByte(x)`
(R195): the detector's step, and the dispatch step of a completed frame in the same step. -/
def rxByte (x : Byte) (s : State) : Host.Outcome State Fault Refusal :=
  bif s.isOpen then
    let d := rxDetect Config.rxBufMax s.rxbuf x
    match d.2 with
    | none => .next (s.setRxbuf d.1)
    | some F => runFrame F (s.setRxbuf d.1)
  else .next s

/-- The timeout watch (R224): `EV_TIMEOUT` if the link is open and no handshake was made; otherwise the evaluation
finds nothing to report. Log entry 5. -/
def timeoutDiag (s : State) : Host.Outcome State Fault Refusal :=
  bif s.isOpen && !s.hs then .next (s.emit .timeout) else .next s

/-- The transport's faults (R214). On open: in place of the effect of a START, with START's precondition. On read: a
step of its own while open (log entry 5). On write: the transport will fail the next send, whose dispatch step shows
the effect (log entry 4). -/
def transportFault (k : TransportFaultKind) (s : State) : Host.Outcome State Fault Refusal :=
  match k with
  | .onOpen => bif s.isOpen then .refused .startWhileOpen else .next (s.raiseError .transportFault (.kind .onOpen))
  | .onRead => bif s.isOpen then .next (s.raiseError .transportFault (.kind .onRead)) else .next s
  | .onWrite => .next s.armSendFault

/-- The step of one agent (R199). -/
def perform (a : Input) (s : State) : Host.Outcome State Fault Refusal :=
  match a with
  | .start cfg => hostStart cfg s
  | .stop => hostStop s
  | .update u => hostUpdate u s
  | .rx x => rxByte x s
  | .timeoutDiag => timeoutDiag s
  | .transportFault k => transportFault k s

end Sys2Proof.Machine
end

