-- ==== Sys2Proof/Machine/Step.lean ====
section
/-! DEFINITION. One step of the responder core (spec/44_session.md R199), and how the host places an instruction
before it. -/

namespace Sys2Proof.Machine

open Sys2Proof

/-- One step: the next pending step of an agent. With nothing pending the core is quiescent and nothing changes: "the
core never halts of its own accord" (R200). Log entry 2. -/
def step (s : State) : Host.Outcome State Fault Refusal :=
  match s.inputs with
  | [] => .next s
  | a :: rest => perform a (s.setInputs rest)

/-- The state in which the very next step completes and runs the request frame of a table word: the link is open, the
detector holds all of the frame but its last byte, and that byte is the next input. Log entry 7. -/
def State.withFetchWord (s : State) (nbits w : Nat) : State :=
  { s with
    isOpen := true
    rxbuf := (tableFrame nbits w).dropLast
    inputs := .rx MARK :: s.inputs }

end Sys2Proof.Machine
end

