-- ==== Sys2Proof/Safety.lean ====
section
/-! DEFINITION. What counts as a safe run, in the terms the statements use: the invariants of spec/10_state.md R42, the
host's preconditions (spec/44_session.md R193, spec/70_reset_and_hazards.md R244) and quiescence (R200). -/

namespace Sys2Proof.Machine

open Sys2Proof

/-! ### Reading the event stream -/

/-- The frames of the `EV_RX_FRAME` events, in order. -/
def rxFrames (ev : List Event) : List (List Byte) :=
  ev.filterMap fun e => match e with
    | .rxFrame F => some F
    | _ => none

/-- The frames of the `EV_TX_FRAME` events, in order. -/
def txFrames (ev : List Event) : List (List Byte) :=
  ev.filterMap fun e => match e with
    | .txFrame T => some T
    | _ => none

/-- The events with which every dispatch step begins: the log line of the request and, if it is the first of its
session, the handshake (R196). -/
def logEvents (F : List Byte) (hs : Bool) : List Event :=
  bif hs then [.rxFrame F] else [.rxFrame F, .handshake]

/-- How many `EV_HANDSHAKE` events there are. -/
def handshakes (ev : List Event) : Nat := ev.count .handshake

/-- The event of a failed send, `EV_ERROR(4, write)` (R214). -/
def writeFault : Event := .error .transportFault (.kind .onWrite)

/-! ### Frames -/

/-- The body `T[1 .. n-4]` of a response (R10). -/
def bodyOf (T : List Byte) : List Byte := (T.drop 1).take (T.length - 4)

/-- A frame of one of the four response lengths (R83) whose slot byte is zero and whose CRC byte is the checksum of
its body, the test of R258. -/
def wellBuilt (T : List Byte) : Bool :=
  isFrame T && [8, 10, 11, 13].contains T.length && byteAt T (T.length - 4) == SLOT
    && byteAt T (T.length - 3) == checksum (bodyOf T)

/-- The invariant of R27 and R42 (3) on the receive buffer: it is empty or starts with the marker, neither it nor a
part of it from its start satisfies `IsFrame`, and it is shorter than `RX_BUF_MAX`. -/
structure RxbufOk (cap : BufferCapacity) (buf : List Byte) : Prop where
  start : buf = [] ∨ byteAt buf 0 = MARK
  noFrame : ∀ k, k ≤ buf.length → isFrame (buf.take k) = false
  room : ∀ m, cap.max = some m → buf.length < m

/-! ### The invariant of the machine -/

/-- R42 (1), (2), (3), (5), in the terms of the state: the receive buffer; every logged request is a frame; a
completed handshake comes with a logged request and a handshake event; every response sent whole is well built; and
absent a write fault `tx` is exactly the frames of the `EV_TX_FRAME` events, one after the other. -/
structure Inv (s : State) : Prop where
  rxbuf : RxbufOk Config.rxBufMax s.rxbuf
  logged : ∀ F, F ∈ rxFrames s.ev → isFrame F = true
  handshake : s.hs = true → rxFrames s.ev ≠ [] ∧ 1 ≤ handshakes s.ev
  built : ∀ T, T ∈ txFrames s.ev → wellBuilt T = true
  sent : writeFault ∉ s.ev → s.tx = (txFrames s.ev).flatten

/-! ### Preconditions and the end of a run -/

/-- The host respects R193 and R254: START (also one that will fail) only while the link is closed. `o` says whether
it is open before the inputs. -/
def startsOnlyWhileClosed : Bool → List Input → Bool
  | _, [] => true
  | o, .start _ :: rest => !o && startsOnlyWhileClosed true rest
  | _, .stop :: rest => startsOnlyWhileClosed false rest
  | o, .transportFault .onOpen :: rest => !o && startsOnlyWhileClosed o rest
  | o, .transportFault .onRead :: rest => startsOnlyWhileClosed o rest
  | o, .transportFault .onWrite :: rest => startsOnlyWhileClosed o rest
  | o, .update _ :: rest => startsOnlyWhileClosed o rest
  | o, .rx _ :: rest => startsOnlyWhileClosed o rest
  | o, .timeoutDiag :: rest => startsOnlyWhileClosed o rest

/-- The Device State fits the digit budgets of every command (R244). -/
def DeviceState.inBudget (S : DeviceState) : Bool :=
  decide (S.magnitude ≤ W_MAX) && decide (S.cnt4.toNat ≤ C_MAX) && decide (S.cnt8.toNat ≤ C_MAX)

/-- The UPDATE that names all nine fields: the host's first boot duty (R244). -/
def Update.all (S : DeviceState) : Update :=
  { addr := some S.addr, sn := some S.sn, w10 := some S.w10, settling := some S.settling, overload := some S.overload,
    netMode := some S.netMode, status := some S.status, cnt4 := some S.cnt4, cnt8 := some S.cnt8 }

/-- Quiescent: "every delivered byte has been processed or the link is closed" (R200). -/
def State.quiescent (s : State) : Bool :=
  !s.isOpen || s.inputs.all fun a => match a with
    | .rx _ => false
    | _ => true

/-- The request fits the receive buffer: it completes at the latest at `RX_BUF_MAX` bytes (R143). -/
def fits (cap : BufferCapacity) (i : Instr) : Prop := ∀ m, cap.max = some m → (encode i).length ≤ m

/-- `n` steps, stopping at the first fault or refusal: `Host.Core.run` of this machine, on the machine's own types. -/
def runSteps : Nat → State → Host.Outcome State Fault Refusal
  | 0, s => .next s
  | n + 1, s =>
    match step s with
    | .next t => runSteps n t
    | .fault r => .fault r
    | .refused r => .refused r

end Sys2Proof.Machine
end

