-- ==== Sys2Proof/Certificates/Slice0/Obligations.lean ====
section
/-! DEFINITION. The statements for the provers. Helper definitions of the statements stand in `Sys2Proof.Spec`: they
say in other words than the model's what the spec's rules say. -/

namespace Sys2Proof.Spec

open Sys2Proof Sys2Proof.Machine

/-- Byte `j` of either BCD packing: "the two decimal digits of `(v div 100^j) mod 100`" (R119). -/
def bcdPair (v j : Nat) : Byte := BitVec.ofNat 8 (16 * (v / 10 ^ (2 * j + 1) % 10) + v / 10 ^ (2 * j) % 10)

/-- The CON byte by the weights of its bits (R73). -/
def conValue (S : DeviceState) (net : Bool) : Byte :=
  BitVec.ofNat 8 ((if S.w10.toInt < 0 then 128 else 0) + (if net then 32 else 0) + (if S.settling then 16 else 0)
    + (if S.overload then 8 else 0) + 1)

/-- A body framed as a response: start marker, body, CRC byte, end marker (R72). -/
def framed (body : List Byte) : List Byte := 0xFF#8 :: body ++ [checksum body, 0xFF#8, 0xFF#8]

/-- The whole next state of a request `F` that is answered with the body `body` (R196): the handshake is marked, the
request, the handshake if it is the first, and the response are logged, the response is sent whole, and the CRC engine
is left with the checksum and the slot byte. Nothing else changes. -/
def answered (s : State) (F body : List Byte) : State :=
  { s with
    hs := true
    tx := s.tx ++ framed body
    ev := s.ev ++ logEvents F s.hs ++ [Event.txFrame (framed body)]
    crc := checksum body
    wk := 0x00#8 }

/-- The whole next state of a request `F` that is not answered (R196): logged and the handshake marked, then the
events `es`. Nothing else changes. -/
def unanswered (s : State) (F : List Byte) (es : List Event) : State :=
  { s with
    hs := true
    ev := s.ev ++ logEvents F s.hs ++ es }

/-- The error event of class (e) (R215). -/
def numericError (cop : Byte) : Event := .error .invalidNumeric (.cop cop)

/-- The conventional CRC-8 of R106 (3): `c <- c ^ b; 8 times: c <- (c << 1) ^ (0x69 if c[7] else 0)`. -/
def crc8Shift (c : Byte) : Byte := if c.getLsbD 7 then (c <<< 1) ^^^ 0x69#8 else c <<< 1

/-- The conventional CRC-8 of a byte sequence (R106 (3)). -/
def crc8 (m : List Byte) : Byte := m.foldl (fun c b => crc8Shift^[8] (c ^^^ b)) 0x00#8

/-- The polynomial of a byte over GF(2): bit `i` is the coefficient of `x^i` (R105). -/
noncomputable def bytePoly (b : Byte) : Polynomial (ZMod 2) :=
  ∑ i ∈ Finset.range 8, if b.getLsbD i then Polynomial.X ^ i else 0

/-- The polynomial of a byte sequence, first byte and bit 7 most significant (R105). -/
noncomputable def messagePoly (m : List Byte) : Polynomial (ZMod 2) :=
  m.foldl (fun p b => p * Polynomial.X ^ 8 + bytePoly b) 0

/-- The generator `x^8 + x^6 + x^5 + x^3 + 1` (R105). -/
noncomputable def generator : Polynomial (ZMod 2) :=
  Polynomial.X ^ 8 + Polynomial.X ^ 6 + Polynomial.X ^ 5 + Polynomial.X ^ 3 + 1

/-- Instructions run one after the other. -/
def runAll : List Instr → State → Host.Outcome State Fault Refusal
  | [], s => .next s
  | i :: rest, s =>
    match exec i s with
    | .next t => runAll rest t
    | .fault r => .fault r
    | .refused r => .refused r

/-- The row's answer length (R83): 10 for SNQ, 11 for the weight commands, 8 for STQ and the unpopulated index, 13
for a populated counter; NOP has none. -/
def answerLength : Instr → Nat
  | .snq _ _ _ => 10
  | .wnet _ _ _ => 11
  | .wgrs _ _ _ => 11
  | .stq _ _ _ => 8
  | .cntq4 _ _ => 13
  | .cntq8 _ _ => 13
  | .cntqOther _ _ _ => 8
  | .nop _ _ _ _ => 0

end Sys2Proof.Spec

open Sys2Proof Sys2Proof.Machine Sys2Proof.Spec

/-! ### CRC Codec -/

/-- R100. -/
def Obligations.CrcBitIsOneShiftAndXor : Prop :=
  ∀ crc wk : Byte,
    (crcBit ⟨crc, wk⟩).wk = BitVec.ofNat 8 (wk.toNat * 2 % 256 + wk.toNat / 128) ∧
    (crcBit ⟨crc, wk⟩).crc =
      (if 128 ≤ crc.toNat then BitVec.ofNat 8 (crc.toNat * 2 % 256 + wk.toNat / 128) ^^^ 0x69#8
       else BitVec.ofNat 8 (crc.toNat * 2 % 256 + wk.toNat / 128))

/-- R102: the loop over the bytes, its corner cases and its example with the running values. -/
def Obligations.ChecksumFeedsBytesInOrder : Prop :=
  checksum [] = 0x00#8 ∧
  (∀ (m : List Byte) (b : Byte), checksum (m ++ [b]) = crcByte (checksum m) b) ∧
  (∀ b : Byte, checksum [b] = b) ∧
  (∀ m : List Byte, checksum (0x00#8 :: m) = checksum m) ∧
  checksum [0xFF#8, 0xFF#8] = 0xD9#8 ∧
  (List.range 6).map (fun n => checksum ([0x14#8, 0xA1#8, 0x12#8, 0x34#8, 0x56#8, 0x00#8].take (n + 1))) =
    [0x14#8, 0xE3#8, 0x85#8, 0x25#8, 0x85#8, 0x11#8]

/-- 40_crc.md section 2 (R105, derived there): the checksum is the remainder of the message modulo the generator. -/
def Obligations.ChecksumIsPolynomialRemainder : Prop :=
  ∀ m : List Byte, bytePoly (checksum m) = messagePoly m %ₘ generator

/-- 40_crc.md section 2 (R106 (1), derived there). -/
def Obligations.ChecksumIsLinear : Prop :=
  ∀ a b : List Byte, a.length = b.length →
    checksum (List.zipWith (fun x y => x ^^^ y) a b) = checksum a ^^^ checksum b

/-- 40_crc.md section 2 (R106 (2) and (3), derived there). -/
def Obligations.ChecksumIsConventionalCrcOfBody : Prop :=
  (∀ (k : Nat) (m : List Byte), checksum (List.replicate k 0x00#8 ++ m) = checksum m) ∧
  (∀ m : List Byte, checksum (m ++ [0x00#8]) = crc8 m)

/-- 40_crc.md section 2 (R106 (4), derived there): the zero remainder belongs to the slot replaced by the CRC byte, not
to the body followed by it. -/
def Obligations.RemainderTestNeedsSlotReplaced : Prop :=
  (∀ m : List Byte, checksum (m ++ [checksum (m ++ [0x00#8])]) = 0x00#8) ∧
  (∃ m : List Byte, checksum (m ++ [0x00#8] ++ [checksum (m ++ [0x00#8])]) ≠ 0x00#8)

/-! ### BCD Codec -/

/-- R120, R122. -/
def Obligations.WeightEncodePacksSixDigits : Prop :=
  ∀ m : Nat,
    (m ≤ 999999 → weightEncode m = .ok [bcdPair m 0, bcdPair m 1, bcdPair m 2]) ∧
    (999999 < m → weightEncode m = .error .bcdOverflow)

/-- R125, R127. -/
def Obligations.CounterEncodePacksTenDigits : Prop :=
  ∀ c : Nat,
    (c ≤ 9999999999 →
      counterEncode c = .ok [bcdPair c 0, bcdPair c 1, bcdPair c 2, bcdPair c 3, bcdPair c 4]) ∧
    (9999999999 < c → counterEncode c = .error .bcdOverflow)

/-- 41_bcd.md section 3 (R124, derived there), both directions. -/
def Obligations.WeightRoundTrip : Prop :=
  (∀ m : Nat, m ≤ 999999 →
    ∃ b0 b1 b2, weightEncode m = .ok [b0, b1, b2] ∧ weightDecode b0 b1 b2 = .ok m) ∧
  (∀ b0 b1 b2 : Byte, (∀ b ∈ [b0, b1, b2], b.hi ≤ 9 ∧ b.lo ≤ 9) →
    ∃ m, m ≤ 999999 ∧ weightDecode b0 b1 b2 = .ok m ∧ weightEncode m = .ok [b0, b1, b2])

/-- 41_bcd.md section 4 (R128, derived there), both directions. -/
def Obligations.CounterRoundTrip : Prop :=
  (∀ c : Nat, c ≤ 9999999999 →
    ∃ c0 c1 c2 c3 c4, counterEncode c = .ok [c0, c1, c2, c3, c4] ∧ counterDecode c0 c1 c2 c3 c4 = .ok c) ∧
  (∀ c0 c1 c2 c3 c4 : Byte, (∀ b ∈ [c0, c1, c2, c3, c4], b.hi ≤ 9 ∧ b.lo ≤ 9) →
    ∃ c, c ≤ 9999999999 ∧ counterDecode c0 c1 c2 c3 c4 = .ok c ∧
      counterEncode c = .ok [c0, c1, c2, c3, c4])

/-- 41_bcd.md section 5 (R129, the spec's decision D11): an invalid BCD byte is rejected, and nothing else is. -/
def Obligations.DecodersRejectInvalidNibbles : Prop :=
  (∀ b0 b1 b2 : Byte,
    weightDecode b0 b1 b2 = .error .bcdInvalid ↔ ∃ b ∈ [b0, b1, b2], 9 < b.hi ∨ 9 < b.lo) ∧
  (∀ c0 c1 c2 c3 c4 : Byte,
    counterDecode c0 c1 c2 c3 c4 = .error .bcdInvalid ↔
      ∃ b ∈ [c0, c1, c2, c3, c4], 9 < b.hi ∨ 9 < b.lo)

/-! ### Frame Codec -/

/-- R140. -/
def Obligations.IsFrameIsMarkersAndLength : Prop :=
  ∀ s : List Byte, isFrame s = true ↔
    6 ≤ s.length ∧ s[0]? = some 0xFF#8 ∧ s[s.length - 2]? = some 0xFF#8 ∧ s[s.length - 1]? = some 0xFF#8

/-- R150, with the operands the dispatcher calls it with. -/
def Obligations.BuildFrameEmitsMarkersAroundPayload : Prop :=
  (∀ (a c k : Byte) (p : List Byte),
    buildFrame a c p k = [0xFF#8, a, c] ++ p ++ [k, 0xFF#8, 0xFF#8] ∧
    (buildFrame a c p k).length = p.length + 6 ∧ isFrame (buildFrame a c p k) = true) ∧
  (∀ (S : DeviceState) (F data : List Byte), ∃ g,
    assemble S F data =
      .respond (buildFrame S.addr (reqCop F) (data ++ [0x00#8])
        (checksum ([S.addr, reqCop F] ++ data ++ [0x00#8]))) g)

/-- 42_frame.md section 3 (R142, R143; the spec's decisions D5, D6): the detector's step on a buffer that meets the
invariant of R27. -/
def Obligations.DetectorStepByCases : Prop :=
  ∀ (cap : BufferCapacity) (buf : List Byte) (x : Byte), RxbufOk cap buf →
    (buf = [] ∧ x ≠ 0xFF#8 → rxDetect cap buf x = ([], none)) ∧
    (isFrame (buf ++ [x]) = true → rxDetect cap buf x = ([], some (buf ++ [x]))) ∧
    ((buf ≠ [] ∨ x = 0xFF#8) ∧ isFrame (buf ++ [x]) = false ∧ cap.max = some (buf.length + 1) →
      rxDetect cap buf x = ([], none)) ∧
    ((buf ≠ [] ∨ x = 0xFF#8) ∧ isFrame (buf ++ [x]) = false ∧ cap.max ≠ some (buf.length + 1) →
      rxDetect cap buf x = (buf ++ [x], none))

/-- 10_state.md R27 and R42 (2), (3) (derived there), and R145 (derived there): a detector step keeps the invariant of
the buffer, and a frame it completes is the whole buffer and has no shorter frame at its start. -/
def Obligations.DetectorKeepsBufferInvariant : Prop :=
  ∀ (cap : BufferCapacity) (buf : List Byte) (x : Byte), RxbufOk cap buf →
    RxbufOk cap (rxDetect cap buf x).1 ∧
    ∀ F, (rxDetect cap buf x).2 = some F →
      F = buf ++ [x] ∧ (rxDetect cap buf x).1 = [] ∧ isFrame F = true ∧
      ∀ k, k < F.length → isFrame (F.take k) = false

/-- 42_frame.md section 3 (R144, which rests on the spec's decision D5): for every capacity, the function of a buffer is
the detector folded over it up to its first frame; for an unbounded receive buffer it is also the cut by the two least
indices of the pseudocode. -/
def Obligations.ExtractIsFoldedDetector : Prop :=
  (∀ (cap : BufferCapacity) (buffer : List Byte),
    match tryExtractFrame cap buffer with
    | .incomplete pending => detectAll cap [] buffer = ([], pending)
    | .frame F rest =>
      detectAll cap [] buffer = (F :: (detectAll cap [] rest).1, (detectAll cap [] rest).2)) ∧
  (∀ buffer : List Byte, tryExtractFrame .unbounded buffer = cutFirstFrame buffer)

/-- 42_frame.md section 3 (R144, R145, derived there; R143): the frame returned is the shortest at its place and fits
the receive buffer, and the detector drops every byte before it; for an unbounded receive buffer it starts at the
first 0xFF. -/
def Obligations.ExtractCutsFirstOccurrence : Prop :=
  ∀ (cap : BufferCapacity) (buffer F rest : List Byte), tryExtractFrame cap buffer = .frame F rest →
    isFrame F = true ∧ (∀ k, k < F.length → isFrame (F.take k) = false) ∧
    (∀ m, cap.max = some m → F.length ≤ m) ∧
    ∃ dropped, buffer = dropped ++ F ++ rest ∧ detectAll cap [] dropped = ([], []) ∧
      (cap = .unbounded → 0xFF#8 ∉ dropped)

/-! ### Encoding -/

/-- Tier 3 (a): for every capacity, the first request of a byte stream that begins with the encoding of a well-formed
instruction that fits the receive buffer is that instruction, and the rest of the stream is left; an instruction that
does not fit is decoded from no stream (R143, R144). -/
def Obligations.DecodeOfEncode : Prop :=
  ∀ (cap : BufferCapacity) (i : Instr), i.wellFormed = true →
    (fits cap i → ∀ rest : List Byte, decode cap (encode i ++ rest) = .ok (i, rest)) ∧
    (¬fits cap i → ∀ buffer rest : List Byte, decode cap buffer ≠ .ok (i, rest))

/-- The other direction, on frames: every frame decodes, to an instruction of its own row whose encoding is the
frame; nothing else decodes. -/
def Obligations.EncodeOfDecodeFrame : Prop :=
  (∀ (F : List Byte) (i : Instr), decodeFrame F = .ok i → encode i = F ∧ i.rowOk = true ∧ isFrame F = true) ∧
  (∀ F : List Byte, isFrame F = true → ∃ i, decodeFrame F = .ok i)

/-- 30_encoding.md section 6 and opcode_table.json: the first row of the table that matches the decode word is the
row of the decoded instruction. -/
def Obligations.TableRowIsDecodedRow : Prop :=
  ∀ F : List Byte, isFrame F = true →
    ∃ i, decodeFrame F = .ok i ∧ selectRow (decodeWord F) = some i.row

/-- Words written from the table's encodings, one for each row. -/
def Obligations.TableWordsDecode : Prop :=
  decodeTableWord 32 0xFF14A197 = some (.snq 0x14#8 0x97#8 []) ∧
  decodeTableWord 32 0xFF14C2B5 = some (.wnet 0x14#8 0xB5#8 []) ∧
  decodeTableWord 32 0xFF14C3DC = some (.wgrs 0x14#8 0xDC#8 []) ∧
  decodeTableWord 32 0xFF14BFF4 = some (.stq 0x14#8 0xF4#8 []) ∧
  decodeTableWord 32 0xFF14C804 = some (.cntq4 0x14#8 []) ∧
  decodeTableWord 32 0xFF14C808 = some (.cntq8 0x14#8 []) ∧
  decodeTableWord 32 0xFF14C805 = some (.cntqOther 0x14#8 0x05#8 []) ∧
  decodeTableWord 32 0xFF140155 = some (.nop 0x14#8 0x01#8 0x55#8 []) ∧
  decodeTableWord 32 0x0014A197 = none

/-! ### Commands: the whole next state -/

/-- SNQ completes in every state whose next send does not fail (43_dispatch.md R163 with the assembly of R161, D31, and
the event order of R196, D32; the engine's registers by log entry 8). -/
def Obligations.SerialQueryAnswers : Prop :=
  ∀ (adr f3 : Byte) (tail : List Byte) (s : State), s.sendFails = false →
    exec (.snq adr f3 tail) s =
      .next (answered s ([0xFF#8, adr, 0xA1#8, f3] ++ tail ++ [0xFF#8, 0xFF#8])
        [s.ds.addr, 0xA1#8, BitVec.ofNat 8 (s.ds.sn.toNat / 65536), BitVec.ofNat 8 (s.ds.sn.toNat / 256),
          BitVec.ofNat 8 s.ds.sn.toNat, 0x00#8])

/-- WNET and WGRS complete when the weight is in budget and the send does not fail (43_dispatch.md R164, R165, R167;
D9, D31, D32; log entry 8). -/
def Obligations.WeightQueriesAnswer : Prop :=
  ∀ (adr f3 : Byte) (tail : List Byte) (s : State), s.sendFails = false → s.ds.w10.toInt.natAbs ≤ 999999 →
    exec (.wnet adr f3 tail) s =
      .next (answered s ([0xFF#8, adr, 0xC2#8, f3] ++ tail ++ [0xFF#8, 0xFF#8])
        [s.ds.addr, 0xC2#8, bcdPair s.ds.w10.toInt.natAbs 0, bcdPair s.ds.w10.toInt.natAbs 1,
          bcdPair s.ds.w10.toInt.natAbs 2, conValue s.ds true, 0x00#8]) ∧
    exec (.wgrs adr f3 tail) s =
      .next (answered s ([0xFF#8, adr, 0xC3#8, f3] ++ tail ++ [0xFF#8, 0xFF#8])
        [s.ds.addr, 0xC3#8, bcdPair s.ds.w10.toInt.natAbs 0, bcdPair s.ds.w10.toInt.natAbs 1,
          bcdPair s.ds.w10.toInt.natAbs 2, conValue s.ds false, 0x00#8])

/-- STQ completes in every state whose next send does not fail (43_dispatch.md R168; D31, D32; log entry 8). -/
def Obligations.StatusQueryAnswers : Prop :=
  ∀ (adr f3 : Byte) (tail : List Byte) (s : State), s.sendFails = false →
    exec (.stq adr f3 tail) s =
      .next (answered s ([0xFF#8, adr, 0xBF#8, f3] ++ tail ++ [0xFF#8, 0xFF#8])
        [s.ds.addr, 0xBF#8, s.ds.status, 0x00#8])

/-- CNTQ with a populated index completes when the selected counter is in budget and the send does not fail; the other
counter may hold anything (43_dispatch.md R169, R171; D31, D32; log entry 8). -/
def Obligations.CounterQueriesAnswer : Prop :=
  ∀ (adr : Byte) (tail : List Byte) (s : State), s.sendFails = false →
    (s.ds.cnt4.toNat ≤ 9999999999 →
      exec (.cntq4 adr tail) s =
        .next (answered s ([0xFF#8, adr, 0xC8#8, 0x04#8] ++ tail ++ [0xFF#8, 0xFF#8])
          [s.ds.addr, 0xC8#8, 0x04#8, bcdPair s.ds.cnt4.toNat 0, bcdPair s.ds.cnt4.toNat 1,
            bcdPair s.ds.cnt4.toNat 2, bcdPair s.ds.cnt4.toNat 3, bcdPair s.ds.cnt4.toNat 4, 0x00#8])) ∧
    (s.ds.cnt8.toNat ≤ 9999999999 →
      exec (.cntq8 adr tail) s =
        .next (answered s ([0xFF#8, adr, 0xC8#8, 0x08#8] ++ tail ++ [0xFF#8, 0xFF#8])
          [s.ds.addr, 0xC8#8, 0x08#8, bcdPair s.ds.cnt8.toNat 0, bcdPair s.ds.cnt8.toNat 1,
            bcdPair s.ds.cnt8.toNat 2, bcdPair s.ds.cnt8.toNat 3, bcdPair s.ds.cnt8.toNat 4, 0x00#8]))

/-- CNTQ with any other index completes with the empty counter section (43_dispatch.md R170; D31, D32; log entry 8). -/
def Obligations.UnpopulatedIndexAnswers : Prop :=
  ∀ (adr nw : Byte) (tail : List Byte) (s : State), s.sendFails = false → nw ≠ 0x04#8 → nw ≠ 0x08#8 →
    exec (.cntqOther adr nw tail) s =
      .next (answered s ([0xFF#8, adr, 0xC8#8, nw] ++ tail ++ [0xFF#8, 0xFF#8])
        [s.ds.addr, 0xC8#8, nw, 0x00#8])

/-- 43_dispatch.md R172: an unknown command is a silent no-op; the dispatch step has logged the frame and marked the
handshake, in the order of 44_session.md R196 (the spec's decision D32, log entry 15). It completes in every state. -/
def Obligations.UnknownCommandIsSilent : Prop :=
  (∀ (S : DeviceState) (F : List Byte),
    reqCop F ∉ [0xA1#8, 0xC2#8, 0xC3#8, 0xBF#8, 0xC8#8] → dispatch S F = .noResponse) ∧
  (∀ (adr cop f3 : Byte) (tail : List Byte) (s : State),
    exec (.nop adr cop f3 tail) s =
      .next (unanswered s ([0xFF#8, adr, cop, f3] ++ tail ++ [0xFF#8, 0xFF#8]) []))

/-- 43_dispatch.md R166, 60_exceptions.md R215 (the spec's decision D10): a weight out of budget ends in class (e);
nothing is sent. The order of log line, handshake and error is that of 44_session.md R196 (D32, log entry 15); that a
pending send fault stays pending is the model's choice, log entry 4. -/
def Obligations.WeightOutOfBudgetIsClassE : Prop :=
  ∀ (adr f3 : Byte) (tail : List Byte) (s : State), 999999 < s.ds.w10.toInt.natAbs →
    exec (.wnet adr f3 tail) s =
      .next (unanswered s ([0xFF#8, adr, 0xC2#8, f3] ++ tail ++ [0xFF#8, 0xFF#8]) [numericError 0xC2#8]) ∧
    exec (.wgrs adr f3 tail) s =
      .next (unanswered s ([0xFF#8, adr, 0xC3#8, f3] ++ tail ++ [0xFF#8, 0xFF#8]) [numericError 0xC3#8])

/-- 43_dispatch.md R171, 60_exceptions.md R215 (the spec's decision D10): the selected counter out of budget ends in
class (e). The order of log line, handshake and error is that of 44_session.md R196 (D32, log entry 15); that a pending
send fault stays pending is the model's choice, log entry 4. -/
def Obligations.CounterOutOfBudgetIsClassE : Prop :=
  ∀ (adr : Byte) (tail : List Byte) (s : State),
    (9999999999 < s.ds.cnt4.toNat →
      exec (.cntq4 adr tail) s =
        .next (unanswered s ([0xFF#8, adr, 0xC8#8, 0x04#8] ++ tail ++ [0xFF#8, 0xFF#8]) [numericError 0xC8#8])) ∧
    (9999999999 < s.ds.cnt8.toNat →
      exec (.cntq8 adr tail) s =
        .next (unanswered s ([0xFF#8, adr, 0xC8#8, 0x08#8] ++ tail ++ [0xFF#8, 0xFF#8]) [numericError 0xC8#8]))

/-- 60_exceptions.md R214 (the spec's decision D27): when the transport fails the send, some part of the frame from its
start, none to all, reaches `tx`, the write error is logged in place of the sent frame, and nothing else differs. The
length of the part is a free value (log entry 4): the statement holds whatever it is. The order of the events is that
of 44_session.md R196 (D32, log entry 15); the engine's registers are left by log entry 8. -/
def Obligations.WriteFaultSendsSomePart : Prop :=
  ∀ (i : Instr) (s : State) (T : List Byte) (g : CrcEngine), i.rowOk = true → s.sendFails = true →
    dispatch s.ds (encode i) = .respond T g →
    ∃ k, k ≤ T.length ∧
      exec i s =
        .next { s with
          hs := true
          tx := s.tx ++ T.take k
          ev := s.ev ++ logEvents (encode i) s.hs ++ [writeFault]
          crc := g.crc
          wk := g.wk
          sendFails := false
          freeIdx := s.freeIdx + 1 }

/-! ### The dispatcher as a whole -/

/-- R160: the case table, and that of the frame only `F[2]` and, for 0xC8, `F[3]` are read. -/
def Obligations.DispatchReadsTwoBytes : Prop :=
  (∀ (S : DeviceState) (F : List Byte), isFrame F = true →
    (reqCop F = 0xA1#8 → dispatch S F = snq S F) ∧
    (reqCop F = 0xC2#8 → dispatch S F = wnet S F) ∧
    (reqCop F = 0xC3#8 → dispatch S F = wgrs S F) ∧
    (reqCop F = 0xBF#8 → dispatch S F = stq S F) ∧
    (reqCop F = 0xC8#8 → dispatch S F = cntq S F) ∧
    (reqCop F ∉ [0xA1#8, 0xC2#8, 0xC3#8, 0xBF#8, 0xC8#8] → dispatch S F = .noResponse)) ∧
  (∀ (S : DeviceState) (F G : List Byte), isFrame F = true → isFrame G = true →
    F[2]? = G[2]? → (F[2]? = some 0xC8#8 → F[3]? = G[3]?) → dispatch S F = dispatch S G)

/-- 43_dispatch.md section 2 and 44_session.md section 4 (R160, R196): running an instruction is the dispatch step of
its frame with the dispatcher's own case analysis. -/
def Obligations.ExecIsDispatchStepOfFrame : Prop :=
  ∀ (i : Instr) (s : State), i.rowOk = true → exec i s = .next (s.dispatchStep dispatch (encode i))

/-- 70_reset_and_hazards.md section 2 (R244): each command reads the fields listed there and no other, and a counter
query only the selected counter (R171, R218). -/
def Obligations.CommandsReadTheirFieldsOnly : Prop :=
  ∀ (S R : DeviceState) (F : List Byte), S.addr = R.addr →
    (reqCop F = 0xA1#8 → S.sn = R.sn → dispatch S F = dispatch R F) ∧
    (reqCop F = 0xC2#8 ∨ reqCop F = 0xC3#8 → S.w10 = R.w10 → S.settling = R.settling → S.overload = R.overload →
      dispatch S F = dispatch R F) ∧
    (reqCop F = 0xBF#8 → S.status = R.status → dispatch S F = dispatch R F) ∧
    (reqCop F = 0xC8#8 → reqNw F = 0x04#8 → S.cnt4 = R.cnt4 → dispatch S F = dispatch R F) ∧
    (reqCop F = 0xC8#8 → reqNw F = 0x08#8 → S.cnt8 = R.cnt8 → dispatch S F = dispatch R F) ∧
    (reqCop F = 0xC8#8 → reqNw F ≠ 0x04#8 → reqNw F ≠ 0x08#8 → dispatch S F = dispatch R F)

/-- 10_state.md section 7 (R33): `netMode` has no observable effect: a step from two states that differ in it alone
ends alike, in states that differ in it alone. -/
def Obligations.NetModeHasNoEffect : Prop :=
  ∀ (i : Instr) (s t : State) (b : Bool), exec i s = .next t →
    exec i { s with ds := { s.ds with netMode := b } } = .next { t with ds := { t.ds with netMode := b } }

/-- 60_exceptions.md sections 2 and 3 (R210 to R213, R215, R218; the spec's decisions D6, D18, D26): at most one class
applies. The arrival of a byte settles class (a) exactly when a byte other than 0xFF meets an empty buffer or the buffer
overflows, and then the bytes are dropped and nothing else happens; a sequence that has not yet ended is of no class and
stays in the buffer; a completed frame has the frame's class, which decides what the dispatcher does. The input list is
the model's own, log entry 2. -/
def Obligations.ErrorClassDecidesReply : Prop :=
  (∀ (cap : BufferCapacity) (S : DeviceState) (buf : List Byte) (x : Byte), RxbufOk cap buf →
    (errorClassOfByte cap S buf x = some .malformedFrame ↔
      (buf = [] ∧ x ≠ 0xFF#8) ∨
      ((buf ≠ [] ∨ x = 0xFF#8) ∧ isFrame (buf ++ [x]) = false ∧ cap.max = some (buf.length + 1))) ∧
    ((buf ≠ [] ∨ x = 0xFF#8) ∧ isFrame (buf ++ [x]) = false ∧ cap.max ≠ some (buf.length + 1) →
      errorClassOfByte cap S buf x = none) ∧
    (isFrame (buf ++ [x]) = true → errorClassOfByte cap S buf x = errorClassOf S (buf ++ [x]))) ∧
  (∀ (s : State) (x : Byte) (rest : List Input), s.isOpen = true → s.inputs = .rx x :: rest →
    (errorClassOfByte Config.rxBufMax s.ds s.rxbuf x = some .malformedFrame →
      step s = .next { s with inputs := rest, rxbuf := [] }) ∧
    (isFrame (s.rxbuf ++ [x]) = false → RxbufOk Config.rxBufMax s.rxbuf →
      errorClassOfByte Config.rxBufMax s.ds s.rxbuf x = none →
      step s = .next { s with inputs := rest, rxbuf := s.rxbuf ++ [x] })) ∧
  (∀ (S : DeviceState) (F : List Byte),
    (isFrame F = true →
      (errorClassOf S F = some .unsupportedCommand ↔ dispatch S F = .noResponse) ∧
      (errorClassOf S F = some .invalidNumeric ↔ dispatch S F = .error (reqCop F)) ∧
      (errorClassOf S F = some .unsupportedIndex ↔
        reqCop F = 0xC8#8 ∧ reqNw F ≠ 0x04#8 ∧ reqNw F ≠ 0x08#8) ∧
      (errorClassOf S F = none ∨ errorClassOf S F = some .unsupportedIndex ↔
        ∃ T g, dispatch S F = .respond T g)) ∧
    errorClassOf S F ≠ some .malformedFrame ∧ errorClassOf S F ≠ some .transportFault)

/-- 30_encoding.md section 3 (R72, R83) and 70_reset_and_hazards.md section 3 (R258): every response has its row's
length, carries the device's address and the request's command byte, closes its body with a zero slot byte and carries
the checksum of its body. -/
def Obligations.ResponsesAreWellBuilt : Prop :=
  ∀ (i : Instr) (S : DeviceState) (T : List Byte) (g : CrcEngine), i.rowOk = true →
    dispatch S (encode i) = .respond T g →
    wellBuilt T = true ∧ T.length = answerLength i ∧ T[1]? = some S.addr ∧ T[2]? = (encode i)[2]? ∧
      g.crc = checksum (bodyOf T)

/-- 43_dispatch.md section 4 (R174): which bytes of a response may be 0xFF: never a BCD byte or CON; the address, the
serial number bytes, STATUS, the echoed NW and the CRC byte can each be. -/
def Obligations.MarkerBytesInResponses : Prop :=
  (∀ (m : Nat) (bs : List Byte), weightEncode m = .ok bs → 0xFF#8 ∉ bs) ∧
  (∀ (c : Nat) (bs : List Byte), counterEncode c = .ok bs → 0xFF#8 ∉ bs) ∧
  (∀ (S : DeviceState) (net : Bool), conByte S net ≠ 0xFF#8) ∧
  (∀ F : List Byte, reqCop F = 0xBF#8 → ∃ S T g, dispatch S F = .respond T g ∧ T[1]? = some 0xFF#8) ∧
  (∀ F : List Byte, reqCop F = 0xA1#8 →
    ∃ S T g, dispatch S F = .respond T g ∧ T[3]? = some 0xFF#8 ∧ T[4]? = some 0xFF#8 ∧ T[5]? = some 0xFF#8) ∧
  (∀ F : List Byte, reqCop F = 0xBF#8 → ∃ S T g, dispatch S F = .respond T g ∧ T[3]? = some 0xFF#8) ∧
  (∀ F : List Byte, reqCop F = 0xC8#8 → reqNw F = 0xFF#8 →
    ∀ S, ∃ T g, dispatch S F = .respond T g ∧ T[3]? = some 0xFF#8) ∧
  (∀ F : List Byte, reqCop F = 0xBF#8 → ∃ S T g, dispatch S F = .respond T g ∧ T[5]? = some 0xFF#8)

/-- 30_encoding.md section 4 (R73; bit 6 by the spec's decision D9): the bits of CON. -/
def Obligations.ConByteLayout : Prop :=
  ∀ (S : DeviceState) (net : Bool),
    (conByte S net).getLsbD 7 = decide (S.w10.toInt < 0) ∧ (conByte S net).getLsbD 6 = false ∧
    (conByte S net).getLsbD 5 = net ∧ (conByte S net).getLsbD 4 = S.settling ∧
    (conByte S net).getLsbD 3 = S.overload ∧ (conByte S net).getLsbD 2 = false ∧
    (conByte S net).getLsbD 1 = false ∧ (conByte S net).getLsbD 0 = true

/-- R74: the STATUS byte is the register, flag by flag in the bit positions of the layout. -/
def Obligations.StatusByteLayout : Prop :=
  ∀ (S : DeviceState) (F : List Byte), ∃ T g, stq S F = .respond T g ∧ T[3]? = some S.status ∧
    S.status = BitVec.ofNat 8
      ((if S.flag .reweighing then 0x80 else 0) + (if S.flag .error then 0x40 else 0)
        + (if S.flag .stopMode then 0x20 else 0) + (if S.flag .cycleComplete then 0x10 else 0)
        + (if S.flag .paused then 0x08 else 0) + (if S.flag .loading then 0x04 else 0)
        + (if S.flag .unloading then 0x02 else 0) + (if S.flag .onPass then 0x01 else 0))

/-- What a command leaves unchanged (10_state.md R36, 43_dispatch.md R173): SNQ, WNET, WGRS, STQ, CNTQ in its three
rows and NOP. The output streams grow only; the log events and their order are those of 44_session.md R196 (D32, log
entry 15). That without a response the CRC engine and the model's own fields are unchanged rests on log entries 8 and
4. -/
def Obligations.CommandFrame : Prop :=
  ∀ (i : Instr) (s t : State), i.rowOk = true → exec i s = .next t →
    t.isOpen = s.isOpen ∧ t.rxbuf = s.rxbuf ∧ t.ds = s.ds ∧ t.inputs = s.inputs ∧ t.hs = true ∧
    (∃ bs, t.tx = s.tx ++ bs) ∧
    (∃ es, t.ev = s.ev ++ logEvents (encode i) s.hs ++ es ∧ es.length ≤ 1) ∧
    ((∀ T g, dispatch s.ds (encode i) ≠ .respond T g) →
      t.tx = s.tx ∧ t.crc = s.crc ∧ t.wk = s.wk ∧ t.sendFails = s.sendFails ∧ t.freeIdx = s.freeIdx)

/-- 70_reset_and_hazards.md section 2 (R244): with an in-budget Device State every answered command byte is answered,
by a well-built frame (30_encoding.md R72, R83), unless the transport fails the send. The events and their order are
those of 44_session.md R196 (D32, log entry 15). -/
def Obligations.InBudgetCommandsAnswer : Prop :=
  ∀ (i : Instr) (s : State), i.rowOk = true → i.row ≠ .nop → s.ds.inBudget = true → s.sendFails = false →
    ∃ t T, exec i s = .next t ∧ t.tx = s.tx ++ T ∧ wellBuilt T = true ∧
      t.ev = s.ev ++ logEvents (encode i) s.hs ++ [Event.txFrame T]

/-! ### Session, agents, errors -/

/-- A step runs the decoded instruction (44_session.md R195, R196; the step's input list is the model's own, log entry
2): when the next input is the byte that completes a frame, the step is the meaning of the decoded instruction in the
state with that input taken and the buffer emptied. -/
def Obligations.StepRunsDecodedRequest : Prop :=
  ∀ (s : State) (x : Byte) (rest : List Input) (i : Instr), s.isOpen = true → s.inputs = .rx x :: rest →
    isFrame (s.rxbuf ++ [x]) = true → decodeFrame (s.rxbuf ++ [x]) = .ok i →
    step s = exec i { s with inputs := rest, rxbuf := [] }

/-- 20_memory.md section 4 (R61, R62; the spec's decisions D17, D28): the bytes of well-formed requests that fit the
receive buffer, offered one after the other to an open core with an empty buffer, run exactly those requests, whole
and in order. -/
def Obligations.RequestBurstRunsInOrder : Prop :=
  ∀ (is : List Instr) (rest : List Input) (s : State),
    (∀ i ∈ is, i.wellFormed = true ∧ fits Config.rxBufMax i) → s.isOpen = true → s.rxbuf = [] →
    s.inputs = (is.flatMap encode).map Input.rx ++ rest →
    runSteps (is.flatMap encode).length s = runAll is { s with inputs := rest }

/-- 70_reset_and_hazards.md section 3 (R251, derived there): one stray 0xFF before a request is taken as the start
marker; the core sees one frame whose command byte is the request's ADR and whose `F[3]` is its COP. -/
def Obligations.StrayMarkerShiftsRequest : Prop :=
  ∀ (cap : BufferCapacity) (adr cop f3 : Byte) (tail : List Byte),
    hasMarkPair (f3 :: tail ++ [0xFF#8]) = false → (∀ m, cap.max = some m → tail.length + 7 ≤ m) →
    detectAll cap [] (0xFF#8 :: requestFrame adr cop f3 tail) = ([0xFF#8 :: requestFrame adr cop f3 tail], []) ∧
    reqCop (0xFF#8 :: requestFrame adr cop f3 tail) = adr ∧ reqNw (0xFF#8 :: requestFrame adr cop f3 tail) = cop

/-- R241: what START of a closed link and STOP write, that Device State is not touched, and that only a START of a
closed link brings `hs` back to 0, where only a STOP closes a link. -/
def Obligations.SessionResetIsStopThenStart : Prop :=
  (∀ (s : State) (cfg : TransportConfig) (rest : List Input), s.inputs = .start cfg :: rest → s.isOpen = false →
    step s = .next { s with inputs := rest, isOpen := true, hs := false, rxbuf := [] }) ∧
  (∀ (s : State) (rest : List Input), s.inputs = .stop :: rest →
    step s = .next { s with inputs := rest, isOpen := false }) ∧
  (∀ s t : State, step s = .next t → s.hs = true → t.hs = false →
    s.isOpen = false ∧ ∃ cfg rest, s.inputs = .start cfg :: rest) ∧
  (∀ s t : State, step s = .next t → s.isOpen = true → t.isOpen = false → ∃ rest, s.inputs = .stop :: rest)

/-- 44_session.md section 3 (R193; the spec's decision D16) and 93_implementation_defined.md U5: START while the link
is open is refused. That a START that would fail is refused then as well is the model's choice, log entry 11. -/
def Obligations.StartWhileOpenIsRefused : Prop :=
  ∀ (s : State) (rest : List Input), s.isOpen = true →
    (∀ cfg, s.inputs = .start cfg :: rest → step s = .refused .startWhileOpen) ∧
    (s.inputs = .transportFault .onOpen :: rest → step s = .refused .startWhileOpen)

/-- 44_session.md section 3 (R192; the spec's decision D23): the named fields take their new values, all in one step;
every other field of the bank and of the state keeps its value. -/
def Obligations.UpdateWritesNamedFields : Prop :=
  ∀ (s : State) (u : Update) (rest : List Input), s.inputs = .update u :: rest →
    ∃ S : DeviceState, step s = .next { s with inputs := rest, ds := S } ∧
      (∀ v, u.addr = some v → S.addr = v) ∧ (u.addr = none → S.addr = s.ds.addr) ∧
      (∀ v, u.sn = some v → S.sn = v) ∧ (u.sn = none → S.sn = s.ds.sn) ∧
      (∀ v, u.w10 = some v → S.w10 = v) ∧ (u.w10 = none → S.w10 = s.ds.w10) ∧
      (∀ v, u.settling = some v → S.settling = v) ∧ (u.settling = none → S.settling = s.ds.settling) ∧
      (∀ v, u.overload = some v → S.overload = v) ∧ (u.overload = none → S.overload = s.ds.overload) ∧
      (∀ v, u.netMode = some v → S.netMode = v) ∧ (u.netMode = none → S.netMode = s.ds.netMode) ∧
      (∀ v, u.status = some v → S.status = v) ∧ (u.status = none → S.status = s.ds.status) ∧
      (∀ v, u.cnt4 = some v → S.cnt4 = v) ∧ (u.cnt4 = none → S.cnt4 = s.ds.cnt4) ∧
      (∀ v, u.cnt8 = some v → S.cnt8 = v) ∧ (u.cnt8 = none → S.cnt8 = s.ds.cnt8)

/-- R194: the phase is a function of the two bits, and the only transitions are those of the table. -/
def Obligations.SessionPhaseTransitions : Prop :=
  (∀ s : State,
    (s.phase = .closed ↔ s.isOpen = false) ∧
    (s.phase = .awaitingHandshake ↔ s.isOpen = true ∧ s.hs = false) ∧
    (s.phase = .handshakeComplete ↔ s.isOpen = true ∧ s.hs = true)) ∧
  (∀ s t : State, step s = .next t →
    t.phase = s.phase ∨
    (s.phase = .closed ∧ t.phase = .awaitingHandshake ∧ ∃ cfg rest, s.inputs = .start cfg :: rest) ∨
    (s.phase = .awaitingHandshake ∧ t.phase = .handshakeComplete ∧
      ∃ x rest, s.inputs = .rx x :: rest ∧ isFrame (s.rxbuf ++ [x]) = true) ∨
    (s.phase ≠ .closed ∧ t.phase = .closed ∧ ∃ rest, s.inputs = .stop :: rest)) ∧
  (∀ (s : State) (cfg : TransportConfig) (rest : List Input), s.phase = .closed → s.inputs = .start cfg :: rest →
    ∃ t, step s = .next t ∧ t.phase = .awaitingHandshake) ∧
  (∀ (s : State) (x : Byte) (rest : List Input), s.phase = .awaitingHandshake → s.inputs = .rx x :: rest →
    isFrame (s.rxbuf ++ [x]) = true → ∃ t, step s = .next t ∧ t.phase = .handshakeComplete) ∧
  (∀ (s : State) (rest : List Input), s.inputs = .stop :: rest → ∃ t, step s = .next t ∧ t.phase = .closed)

/-- 60_exceptions.md section 4 (R223) and 10_state.md R25, step by step: a handshake event is added exactly by the step
that sets `hs`, once, right after the log line of the frame that set it. -/
def Obligations.HandshakeEventOncePerSession : Prop :=
  ∀ s t : State, step s = .next t →
    handshakes t.ev = handshakes s.ev + (if s.hs = false ∧ t.hs = true then 1 else 0) ∧
    (s.hs = false → t.hs = true →
      ∃ F es, isFrame F = true ∧ t.ev = s.ev ++ [Event.rxFrame F, Event.handshake] ++ es)

/-- 10_state.md section 8 (R36, R24): which agent's step can change which part of the state. The last two clauses are
about the model's own fields (log entry 4). -/
def Obligations.WritersOfState : Prop :=
  ∀ (s t : State) (a : Input) (rest : List Input), s.inputs = a :: rest → step s = .next t →
    t.inputs = rest ∧
    (t.isOpen ≠ s.isOpen → a = .stop ∨ ∃ cfg, a = .start cfg) ∧
    (t.hs ≠ s.hs → (∃ x, a = .rx x) ∨ ∃ cfg, a = .start cfg) ∧
    (t.rxbuf ≠ s.rxbuf → (∃ x, a = .rx x) ∨ ∃ cfg, a = .start cfg) ∧
    (t.ds ≠ s.ds → ∃ u, a = .update u) ∧
    (t.crc ≠ s.crc ∨ t.wk ≠ s.wk ∨ t.tx ≠ s.tx → ∃ x, a = .rx x) ∧
    (t.ev ≠ s.ev → (∃ x, a = .rx x) ∨ a = .timeoutDiag ∨ ∃ k, a = .transportFault k) ∧
    (t.sendFails ≠ s.sendFails → a = .transportFault .onWrite ∨ ∃ x, a = .rx x) ∧
    (t.freeIdx ≠ s.freeIdx → ∃ x, a = .rx x)

/-- 10_state.md section 6 (R28): the output streams are append-only under every step. -/
def Obligations.OutputsOnlyGrow : Prop :=
  ∀ s t : State, step s = .next t → s.tx <+: t.tx ∧ s.ev <+: t.ev

/-- 60_exceptions.md section 4 (R224; the spec's decision D19). That an evaluation outside the awaiting phase changes
nothing is the model's choice, log entry 5. -/
def Obligations.TimeoutOnlyWhileAwaiting : Prop :=
  ∀ (s : State) (rest : List Input), s.inputs = .timeoutDiag :: rest →
    (s.isOpen = true ∧ s.hs = false → step s = .next { s with inputs := rest, ev := s.ev ++ [Event.timeout] }) ∧
    (¬(s.isOpen = true ∧ s.hs = false) → step s = .next { s with inputs := rest })

/-- 60_exceptions.md section 2 (R214; the spec's decision D27): the faults on open and on read change nothing and log
`EV_ERROR(4, kind)`. The model's choices: a read fault while the link is closed changes nothing (log entry 5), and the
fault on write, which R214 puts inside a later dispatch step, sets the model's own flag `sendFails`, the premise of
`WriteFaultSendsSomePart`, and nothing else (log entry 4). -/
def Obligations.OpenAndReadFaultsOnlyLog : Prop :=
  ∀ (s : State) (rest : List Input),
    (s.inputs = .transportFault .onOpen :: rest → s.isOpen = false →
      step s = .next { s with inputs := rest, ev := s.ev ++ [Event.error .transportFault (.kind .onOpen)] }) ∧
    (s.inputs = .transportFault .onRead :: rest → s.isOpen = true →
      step s = .next { s with inputs := rest, ev := s.ev ++ [Event.error .transportFault (.kind .onRead)] }) ∧
    (s.inputs = .transportFault .onRead :: rest → s.isOpen = false → step s = .next { s with inputs := rest }) ∧
    (s.inputs = .transportFault .onWrite :: rest → step s = .next { s with inputs := rest, sendFails := true })

/-- 44_session.md section 4 (R198; the spec's decision D24): bytes that arrive while the link is closed are lost. -/
def Obligations.BytesWhileClosedAreLost : Prop :=
  ∀ (bytes : List Byte) (rest : List Input) (s : State), s.isOpen = false →
    s.inputs = bytes.map Input.rx ++ rest →
    runSteps bytes.length s = .next { s with inputs := rest }

/-! ### Reset and invariants -/

/-- 10_state.md section 9 (R40, R41; the spec's decision D14), for every Device State: the launch state. Nothing is
said of the Device State of `State.reset` (log entry 1). -/
def Obligations.LaunchStateFields : Prop :=
  (∀ S : DeviceState,
    (State.launch S).isOpen = false ∧ (State.launch S).hs = false ∧ (State.launch S).rxbuf = [] ∧
    (State.launch S).tx = [] ∧ (State.launch S).ev = [] ∧ (State.launch S).crc = 0x00#8 ∧
    (State.launch S).wk = 0x00#8 ∧ (State.launch S).ds = S ∧ (State.launch S).phase = .closed) ∧
  ∃ S, State.reset = State.launch S

/-- 70_reset_and_hazards.md section 2 (R244; the spec's decision D14): after an UPDATE of all nine fields and a START,
whatever the launch state's Device State was, the core awaits the handshake with the Device State the host wrote. -/
def Obligations.BootDutiesFixDeviceState : Prop :=
  ∀ (S R : DeviceState) (cfg : TransportConfig) (rest : List Input),
    runSteps 2 { State.launch R with inputs := .update (Update.all S) :: .start cfg :: rest } =
      .next { State.launch S with isOpen := true, inputs := rest }

/-- The invariant holds in every launch state, the reset state among them. -/
def Obligations.LaunchMeetsInvariant : Prop :=
  (∀ S : DeviceState, Inv (State.launch S)) ∧ Inv State.reset

/-- Tier 3 (b), 10_state.md section 10 (R42, derived there): every step from a state that meets the invariant leads
to one that meets it. -/
def Obligations.StepKeepsInvariant : Prop :=
  ∀ s t : State, Inv s → step s = .next t → Inv t

/-- 60_exceptions.md section 3 (R217): from a state that meets the invariant no step faults, and the one refusal is a
START, also one that would fail, while the link is open. -/
def Obligations.NothingIsFatal : Prop :=
  ∀ s : State, Inv s →
    (∀ r, step s ≠ .fault r) ∧
    (∀ r, step s = .refused r → r = .startWhileOpen ∧ s.isOpen = true ∧
      ((∃ cfg rest, s.inputs = .start cfg :: rest) ∨ ∃ rest, s.inputs = .transportFault .onOpen :: rest))

/-- 44_session.md section 5 (R199, R200; the spec's decision D33; the input list is the model's own, log entry 2): if
the host starts the link only while it is closed, the core takes every pending step, one a step, without a stop, and
ends quiescent with the invariant kept. -/
def Obligations.EveryInputIsProcessed : Prop :=
  ∀ s : State, Inv s → startsOnlyWhileClosed s.isOpen s.inputs = true →
    ∃ t, runSteps s.inputs.length s = .next t ∧ t.inputs = [] ∧ t.quiescent = true ∧ Inv t
end

