-- ==== Sys2Proof/Laws/Crc.lean ====
section
/-! SUPPORT. The small lemmas of the CRC engine: how a computation grows by one byte, and that its result does not
depend on what `wk` held before. -/

namespace Sys2Proof.Machine

open Sys2Proof

@[simp] theorem crcRun_nil (g : CrcEngine) : crcRun g [] = { crc := CRC_INIT, wk := g.wk } := rfl

theorem crcRun_concat (g : CrcEngine) (m : List Byte) (b : Byte) :
    crcRun g (m ++ [b]) = crcFeed (crcRun g m) b := by
  simp [crcRun, List.foldl_append]

/-- `wk` is loaded before it is read: the engine's old `wk` does not reach the result (R101). -/
theorem crcFeed_wk_irrelevant (c w w' b : Byte) : crcFeed { crc := c, wk := w } b = crcFeed { crc := c, wk := w' } b :=
  rfl

theorem crcFeed_crc (g : CrcEngine) (b : Byte) : (crcFeed g b).crc = crcByte g.crc b := rfl

@[simp] theorem checksum_nil : checksum [] = 0x00#8 := rfl

theorem checksum_concat (m : List Byte) (b : Byte) : checksum (m ++ [b]) = crcByte (checksum m) b := by
  simp only [checksum, crcRun_concat, crcFeed_crc]

/-- The engine's accumulator after a computation is the checksum, whatever `wk` held. -/
theorem crcRun_crc (g : CrcEngine) (m : List Byte) : (crcRun g m).crc = checksum m := by
  induction m using List.reverseRecOn with
  | nil => rfl
  | append_singleton m b ih => rw [crcRun_concat, crcFeed_crc, ih, checksum_concat]

/-- One `CrcBit` rotates `wk` left by one bit, whatever the accumulator holds (R100). -/
theorem crcBit_wk (g : CrcEngine) : (crcBit g).wk = g.wk.rotateLeft 1 := by
  simp only [crcBit, Byte.ofBit, BitVec.rotateLeft, BitVec.rotateLeftAux]
  apply BitVec.eq_of_getLsbD_eq
  intro i hi
  cases hm : g.wk.msb <;> interval_cases i <;> simp_all [BitVec.msb_eq_getLsbD_last]

/-- Bit `i` of `wk` after `n` iterations is the bit that stood `n` places below, cyclically. -/
theorem crcBits_wk (n : Nat) (g : CrcEngine) : (crcBits n g).wk = (fun b : Byte => b.rotateLeft 1)^[n] g.wk := by
  induction n generalizing g with
  | zero => rfl
  | succ n ih => rw [crcBits, ih, Function.iterate_succ_apply, crcBit_wk]

/-- After a byte is fed, `wk` holds the byte again: eight rotations of an 8-bit value are the identity (R22). -/
@[simp] theorem crcFeed_wk (g : CrcEngine) (b : Byte) : (crcFeed g b).wk = b := by
  rw [crcFeed, crcBits_wk]
  simp only [Function.iterate_succ_apply, Function.iterate_zero, id]
  apply BitVec.eq_of_getLsbD_eq
  intro i hi
  interval_cases i <;> simp

end Sys2Proof.Machine
end

