-- ==== Sys2Proof/Laws/FrameCodec.lean ====
section
/-! SUPPORT. The frame predicate as a shape of the list, and everything a detector step can do. -/

namespace Sys2Proof

@[simp] theorem byteAt_zero (a : Byte) (s : List Byte) : byteAt (a :: s) 0 = a := rfl

@[simp] theorem byteAt_succ (a : Byte) (s : List Byte) (i : Nat) : byteAt (a :: s) (i + 1) = byteAt s i := rfl

theorem byteAt_append_right (s t : List Byte) (i : Nat) (h : s.length ≤ i) :
    byteAt (s ++ t) i = byteAt t (i - s.length) := by
  simp [byteAt, List.getElem?_append_right h]

theorem byteAt_append_left (s t : List Byte) (i : Nat) (h : i < s.length) :
    byteAt (s ++ t) i = byteAt s i := by
  simp [byteAt, List.getElem?_append_left h]

/-- A sequence closes exactly when it is at least four bytes and then the pair of markers. -/
theorem closes_iff (s : List Byte) :
    closes s = true ↔ ∃ m, 4 ≤ m.length ∧ s = m ++ [MARK, MARK] := by
  constructor
  · intro h
    simp only [closes, Bool.and_eq_true, decide_eq_true_eq, beq_iff_eq] at h
    obtain ⟨⟨hl, h1⟩, h2⟩ := h
    simp only [MIN_FRAME] at hl
    refine ⟨s.take (s.length - 2), by simp; omega, ?_⟩
    have hd : s.drop (s.length - 2) = [MARK, MARK] := by
      apply List.ext_getElem
      · simp; omega
      · intro n hn hn'
        have hn2 : n < 2 := by simpa using hn'
        have hg : ∀ j (hj : j < s.length), byteAt s j = s[j] := fun j hj => by simp [byteAt, hj]
        rw [hg _ (by omega)] at h1 h2
        rw [List.getElem_drop]
        have : n = 0 ∨ n = 1 := by omega
        rcases this with rfl | rfl
        · simpa using h2
        · have e : s.length - 2 + 1 = s.length - 1 := by omega
          simp [e, h1]
    conv_lhs => rw [← List.take_append_drop (s.length - 2) s, hd]
  · rintro ⟨m, hm, rfl⟩
    have e1 : (m ++ [MARK, MARK]).length - 1 = m.length + 1 := by simp
    have e2 : (m ++ [MARK, MARK]).length - 2 = m.length := by simp
    simp only [closes, MIN_FRAME, e1, e2, byteAt_append_right m _ (m.length + 1) (by omega),
      byteAt_append_right m _ m.length (by omega)]
    simp [byteAt]
    omega

/-- A frame is a marker, at least three bytes, and the pair of markers (R140). -/
theorem isFrame_iff (s : List Byte) :
    isFrame s = true ↔ ∃ m, 3 ≤ m.length ∧ s = MARK :: m ++ [MARK, MARK] := by
  simp only [isFrame, Bool.and_eq_true, closes_iff, beq_iff_eq]
  constructor
  · rintro ⟨⟨m, hm, rfl⟩, h0⟩
    cases m with
    | nil => simp at hm
    | cons a m =>
      simp only [List.cons_append, byteAt_zero] at h0
      exact ⟨m, by simpa using hm, by rw [h0]⟩
  · rintro ⟨m, hm, rfl⟩
    exact ⟨⟨MARK :: m, by simpa using hm, rfl⟩, rfl⟩

theorem isFrame_length {s : List Byte} (h : isFrame s = true) : 6 ≤ s.length := by
  obtain ⟨m, hm, rfl⟩ := (isFrame_iff s).mp h
  simp; omega

theorem buildFrame_eq (a c : Byte) (p : List Byte) (k : Byte) :
    buildFrame a c p k = MARK :: ([a, c] ++ p ++ [k]) ++ [MARK, MARK] := by
  simp [buildFrame]

/-- The capacity test is equality with `RX_BUF_MAX` (R143). -/
theorem reached_iff (c : BufferCapacity) (n : Nat) : c.reached n = true ↔ c.max = some n := by
  cases c with
  | unbounded => simp [BufferCapacity.reached, BufferCapacity.max]
  | bounded k =>
    simp only [BufferCapacity.reached, BufferCapacity.max, Bool.and_eq_true, decide_eq_true_eq, beq_iff_eq,
      Option.some.injEq]
    omega

/-- Everything a detector step can do (R142): drop a byte in hunt, complete a frame, overflow, or keep the byte. -/
theorem rxDetect_cases (cap : BufferCapacity) (buf : List Byte) (x : Byte) :
    (buf = [] ∧ x ≠ MARK ∧ rxDetect cap buf x = ([], none)) ∨
    ((buf = [] → x = MARK) ∧ closes (buf ++ [x]) = true ∧ rxDetect cap buf x = ([], some (buf ++ [x]))) ∨
    ((buf = [] → x = MARK) ∧ closes (buf ++ [x]) = false ∧ cap.max = some (buf.length + 1) ∧
      rxDetect cap buf x = ([], none)) ∨
    ((buf = [] → x = MARK) ∧ closes (buf ++ [x]) = false ∧ cap.max ≠ some (buf.length + 1) ∧
      rxDetect cap buf x = (buf ++ [x], none)) := by
  unfold rxDetect
  by_cases h1 : buf.isEmpty && x != MARK
  · left
    simp only [h1, cond_true]
    simp only [Bool.and_eq_true, List.isEmpty_iff, bne_iff_ne, ne_eq] at h1
    exact ⟨h1.1, h1.2, trivial⟩
  · right
    have hx : buf = [] → x = MARK := by
      intro hb
      by_contra hne
      exact h1 (by simp [hb, hne])
    simp only [h1, cond_false]
    by_cases h2 : closes (buf ++ [x]) = true
    · left; exact ⟨hx, h2, by simp [h2]⟩
    · right
      have h2' : closes (buf ++ [x]) = false := by simpa using h2
      by_cases h3 : cap.reached (buf.length + 1) = true
      · left; exact ⟨hx, h2', (reached_iff _ _).mp h3, by simp [h2', h3]⟩
      · right; exact ⟨hx, h2', fun h => h3 ((reached_iff _ _).mpr h), by simp [h2', h3]⟩

/-- Bytes are dropped as malformed exactly when the step leaves an empty buffer and no frame (R211). -/
theorem dropsMalformed_iff (cap : BufferCapacity) (buf : List Byte) (x : Byte) :
    dropsMalformed cap buf x = true ↔ rxDetect cap buf x = ([], none) := by
  unfold dropsMalformed rxDetect
  cases buf.isEmpty && x != MARK <;> cases closes (buf ++ [x]) <;> cases cap.reached (buf.length + 1) <;> simp

/-- A byte that makes the buffer a frame completes it, whatever the capacity (R142, R143). -/
theorem rxDetect_of_isFrame {cap : BufferCapacity} {buf : List Byte} {x : Byte} (h : isFrame (buf ++ [x]) = true) :
    rxDetect cap buf x = ([], some (buf ++ [x])) := by
  have hl := isFrame_length h
  rcases rxDetect_cases cap buf x with ⟨rfl, _, _⟩ | ⟨_, _, e⟩ | ⟨_, hc, _⟩ | ⟨_, hc, _⟩
  · simp at hl
  · exact e
  · simp [isFrame, hc] at h
  · simp [isFrame, hc] at h

/-- What a detector step completes is the buffer with the byte, and the buffer is then empty (R142). -/
theorem rxDetect_some {cap : BufferCapacity} {buf F : List Byte} {x : Byte} (h : (rxDetect cap buf x).2 = some F) :
    F = buf ++ [x] ∧ closes (buf ++ [x]) = true ∧ (rxDetect cap buf x).1 = [] := by
  rcases rxDetect_cases cap buf x with ⟨_, _, e⟩ | ⟨_, hc, e⟩ | ⟨_, _, _, e⟩ | ⟨_, _, _, e⟩ <;> simp [e] at h ⊢
  exact ⟨h.symm, hc⟩

/-! ### Extraction as a fold (R144) -/

@[simp] theorem extractFrom_nil (cap : BufferCapacity) (buf : List Byte) : extractFrom cap buf [] = .incomplete buf := rfl

theorem extractFrom_cons_some {cap : BufferCapacity} {buf F : List Byte} {x : Byte} (xs : List Byte)
    (h : (rxDetect cap buf x).2 = some F) : extractFrom cap buf (x :: xs) = .frame F xs := by
  rcases hd : rxDetect cap buf x with ⟨b, _ | G⟩ <;> rw [hd] at h
  · cases h
  · cases h; simp [extractFrom, hd]

theorem extractFrom_cons_none {cap : BufferCapacity} {buf : List Byte} {x : Byte} (xs : List Byte)
    (h : (rxDetect cap buf x).2 = none) :
    extractFrom cap buf (x :: xs) = extractFrom cap (rxDetect cap buf x).1 xs := by
  rcases hd : rxDetect cap buf x with ⟨b, _ | G⟩ <;> rw [hd] at h
  · simp [extractFrom, hd]
  · cases h

end Sys2Proof
end

