-- ==== Sys2Proof/Laws/Decode.lean ====
section
/-! SUPPORT. What the decoder answers on a frame, and the small lemmas of the request formats. -/

namespace Sys2Proof

@[simp] theorem requestFrame_length (a c f : Byte) (t : List Byte) : (requestFrame a c f t).length = t.length + 6 := by
  simp [requestFrame]

theorem requestFrame_isFrame (a c f : Byte) (t : List Byte) : isFrame (requestFrame a c f t) = true :=
  (isFrame_iff _).mpr ⟨[a, c, f] ++ t, by simp, by simp [requestFrame]⟩

@[simp] theorem byteAt_requestFrame_one (a c f : Byte) (t : List Byte) : byteAt (requestFrame a c f t) 1 = a := rfl
@[simp] theorem byteAt_requestFrame_two (a c f : Byte) (t : List Byte) : byteAt (requestFrame a c f t) 2 = c := rfl
@[simp] theorem byteAt_requestFrame_three (a c f : Byte) (t : List Byte) : byteAt (requestFrame a c f t) 3 = f := rfl

theorem isFrame_exists_request {F : List Byte} (h : isFrame F = true) :
    ∃ a c f t, F = requestFrame a c f t := by
  obtain ⟨m, hm, rfl⟩ := (isFrame_iff F).mp h
  match m, hm with
  | a :: c :: f :: t, _ => exact ⟨a, c, f, t, by simp [requestFrame]⟩

/-- The decoder reads the fields of a request frame (R71). -/
theorem decodeFrame_requestFrame (a c f : Byte) (t : List Byte) :
    decodeFrame (requestFrame a c f t) = .ok (instrOfFields a c f t) := by
  have hF := requestFrame_isFrame a c f t
  simp only [isFrame, closes, Bool.and_eq_true, decide_eq_true_eq, beq_iff_eq] at hF
  obtain ⟨⟨⟨hl, h1⟩, h2⟩, h0⟩ := hF
  simp only [decodeFrame, h0, h1, h2, Nat.not_lt.mpr hl]
  simp [requestFrame]

/-- The decoder accepts frames and nothing else. -/
theorem decodeFrame_ok_isFrame {F : List Byte} {i : Instr} (h : decodeFrame F = .ok i) : isFrame F = true := by
  unfold decodeFrame at h
  split at h
  · cases h
  split at h
  · cases h
  split at h
  · cases h
  · rename_i h1 h2 h3
    simp only [isFrame, closes, Bool.and_eq_true, decide_eq_true_eq, beq_iff_eq]
    push Not at h2 h3
    exact ⟨⟨⟨Nat.not_lt.mp h1, h3.1⟩, h3.2⟩, h2⟩

theorem encode_instrOfFields (a c f : Byte) (t : List Byte) :
    encode (instrOfFields a c f t) = requestFrame a c f t := by
  unfold instrOfFields
  split
  · simp_all [encode]
  split
  · simp_all [encode]
  split
  · simp_all [encode]
  split
  · simp_all [encode]
  split
  · split
    · simp_all [encode]
    split
    · simp_all [encode]
    · simp_all [encode]
  · simp_all [encode]

end Sys2Proof
end

