-- ==== Sys2Proof/Laws/Dispatcher.lean ====
section
/-! SUPPORT. What each function of the dispatcher can answer, said once. -/

namespace Sys2Proof.Machine

open Sys2Proof

/-- A response is the marker, the body, the checksum of the body and the end marker (R72, R104, R161). -/
theorem assemble_eq (S : DeviceState) (F data : List Byte) :
    assemble S F data =
      .respond (MARK :: responseBody S F data ++ [checksum (responseBody S F data), MARK, MARK])
        { crc := checksum (responseBody S F data), wk := SLOT } := by
  have hb : responseBody S F data = ([S.addr, reqCop F] ++ data) ++ [SLOT] := rfl
  have hw : (crcRun { crc := CRC_INIT, wk := 0x00#8 } (responseBody S F data)).wk = SLOT := by
    rw [hb, crcRun_concat, crcFeed_wk]
  have hc := crcRun_crc { crc := CRC_INIT, wk := 0x00#8 } (responseBody S F data)
  have he : crcRun { crc := CRC_INIT, wk := 0x00#8 } (responseBody S F data) =
      { crc := checksum (responseBody S F data), wk := SLOT } := by
    rw [← hc, ← hw]
  simp only [assemble, he]
  simp [buildFrame, responseBody]

theorem weightEncode_in {m : Nat} (h : m ≤ W_MAX) :
    weightEncode m = .ok [pack (digit m W_DIGITS 4) (digit m W_DIGITS 5), pack (digit m W_DIGITS 2) (digit m W_DIGITS 3),
      pack (digit m W_DIGITS 0) (digit m W_DIGITS 1)] := by
  simp [weightEncode, Nat.not_lt.mpr h]

theorem weightEncode_over {m : Nat} (h : W_MAX < m) : weightEncode m = .error .bcdOverflow := by
  simp [weightEncode, h]

theorem counterEncode_in {c : Nat} (h : c ≤ C_MAX) :
    counterEncode c = .ok [pack (digit c C_DIGITS 8) (digit c C_DIGITS 9), pack (digit c C_DIGITS 6) (digit c C_DIGITS 7),
      pack (digit c C_DIGITS 4) (digit c C_DIGITS 5), pack (digit c C_DIGITS 2) (digit c C_DIGITS 3),
      pack (digit c C_DIGITS 0) (digit c C_DIGITS 1)] := by
  simp [counterEncode, Nat.not_lt.mpr h, List.range_succ]

theorem counterEncode_over {c : Nat} (h : C_MAX < c) : counterEncode c = .error .bcdOverflow := by
  simp [counterEncode, h]

/-- Everything the class of a byte's arrival can be (R211, R218). -/
theorem errorClassOfByte_cases (cap : BufferCapacity) (S : DeviceState) (buf : List Byte) (x : Byte) :
    (rxDetect cap buf x = ([], none) ∧ errorClassOfByte cap S buf x = some .malformedFrame) ∨
    (rxDetect cap buf x = ([], some (buf ++ [x])) ∧ errorClassOfByte cap S buf x = errorClassOf S (buf ++ [x])) ∨
    (rxDetect cap buf x = (buf ++ [x], none) ∧ errorClassOfByte cap S buf x = none) := by
  rcases hd : dropsMalformed cap buf x with _ | _
  · right
    have hn : rxDetect cap buf x ≠ ([], none) := by
      rw [ne_eq, ← dropsMalformed_iff, hd]; simp
    rcases rxDetect_cases cap buf x with ⟨_, _, e⟩ | ⟨_, _, e⟩ | ⟨_, _, _, e⟩ | ⟨_, _, _, e⟩
    · exact absurd e hn
    · exact .inl ⟨e, by simp [errorClassOfByte, hd, e]⟩
    · exact absurd e hn
    · exact .inr ⟨e, by simp [errorClassOfByte, hd, e]⟩
  · exact .inl ⟨(dropsMalformed_iff _ _ _).mp hd, by simp [errorClassOfByte, hd]⟩

/-- A frame's class is none of (a) and (d) (R210, R218). -/
theorem errorClassOf_frameLevel (S : DeviceState) (F : List Byte) :
    errorClassOf S F ≠ some .malformedFrame ∧ errorClassOf S F ≠ some .transportFault := by
  unfold errorClassOf
  constructor <;> (repeat' split) <;> simp

/-- The weight commands answer, or end in class (e), by the budget alone (R164, R166, R167). -/
theorem weightReply_cases (net : Bool) (S : DeviceState) (F : List Byte) :
    (S.magnitude ≤ W_MAX ∧ ∃ bcd, weightEncode S.magnitude = .ok bcd ∧ bcd.length = 3 ∧
      weightReply net S F = assemble S F (bcd ++ [conByte S net])) ∨
    (W_MAX < S.magnitude ∧ weightReply net S F = .error (reqCop F)) := by
  by_cases h : S.magnitude ≤ W_MAX
  · left
    exact ⟨h, _, weightEncode_in h, rfl, by simp [weightReply, weightEncode_in h]⟩
  · right
    have h' : W_MAX < S.magnitude := Nat.not_le.mp h
    exact ⟨h', by simp [weightReply, weightEncode_over h']⟩

/-- The counter command: no data, a counter in budget, or class (e) (R169 to R171). -/
theorem cntq_cases (S : DeviceState) (F : List Byte) :
    (counterLookup S (reqNw F) = none ∧ cntq S F = assemble S F [reqNw F]) ∨
    (∃ c, counterLookup S (reqNw F) = some c ∧ c ≤ C_MAX ∧ ∃ bcd, counterEncode c = .ok bcd ∧ bcd.length = 5 ∧
      cntq S F = assemble S F ([reqNw F] ++ bcd)) ∨
    (∃ c, counterLookup S (reqNw F) = some c ∧ C_MAX < c ∧ cntq S F = .error (reqCop F)) := by
  cases hl : counterLookup S (reqNw F) with
  | none => left; exact ⟨rfl, by simp [cntq, hl]⟩
  | some c =>
    right
    by_cases h : c ≤ C_MAX
    · left
      exact ⟨c, rfl, h, _, counterEncode_in h, rfl, by simp [cntq, hl, counterEncode_in h]⟩
    · right
      have h' : C_MAX < c := Nat.not_le.mp h
      exact ⟨c, rfl, h', by simp [cntq, hl, counterEncode_over h']⟩

end Sys2Proof.Machine
end

