-- ==== Sys2Proof/Laws/State.lean ====
section
/-! SUPPORT. One lemma per field per update of the state, true by rfl, so that no later proof unfolds a record
update; and what the compound operations of Machine/Ops.lean leave in each field. -/

namespace Sys2Proof.Machine

open Sys2Proof

/-! ### emit -/

@[simp] theorem State.emit_isOpen (e : Event) (s : State) : (s.emit e).isOpen = s.isOpen := rfl

@[simp] theorem State.emit_hs (e : Event) (s : State) : (s.emit e).hs = s.hs := rfl

@[simp] theorem State.emit_rxbuf (e : Event) (s : State) : (s.emit e).rxbuf = s.rxbuf := rfl

@[simp] theorem State.emit_ds (e : Event) (s : State) : (s.emit e).ds = s.ds := rfl

@[simp] theorem State.emit_crc (e : Event) (s : State) : (s.emit e).crc = s.crc := rfl

@[simp] theorem State.emit_wk (e : Event) (s : State) : (s.emit e).wk = s.wk := rfl

@[simp] theorem State.emit_tx (e : Event) (s : State) : (s.emit e).tx = s.tx := rfl

@[simp] theorem State.emit_ev (e : Event) (s : State) : (s.emit e).ev = s.ev ++ [e] := rfl

@[simp] theorem State.emit_inputs (e : Event) (s : State) : (s.emit e).inputs = s.inputs := rfl

@[simp] theorem State.emit_sendFails (e : Event) (s : State) : (s.emit e).sendFails = s.sendFails := rfl

@[simp] theorem State.emit_freeIdx (e : Event) (s : State) : (s.emit e).freeIdx = s.freeIdx := rfl

/-! ### appendTx -/

@[simp] theorem State.appendTx_isOpen (bs : List Byte) (s : State) : (s.appendTx bs).isOpen = s.isOpen := rfl

@[simp] theorem State.appendTx_hs (bs : List Byte) (s : State) : (s.appendTx bs).hs = s.hs := rfl

@[simp] theorem State.appendTx_rxbuf (bs : List Byte) (s : State) : (s.appendTx bs).rxbuf = s.rxbuf := rfl

@[simp] theorem State.appendTx_ds (bs : List Byte) (s : State) : (s.appendTx bs).ds = s.ds := rfl

@[simp] theorem State.appendTx_crc (bs : List Byte) (s : State) : (s.appendTx bs).crc = s.crc := rfl

@[simp] theorem State.appendTx_wk (bs : List Byte) (s : State) : (s.appendTx bs).wk = s.wk := rfl

@[simp] theorem State.appendTx_tx (bs : List Byte) (s : State) : (s.appendTx bs).tx = s.tx ++ bs := rfl

@[simp] theorem State.appendTx_ev (bs : List Byte) (s : State) : (s.appendTx bs).ev = s.ev := rfl

@[simp] theorem State.appendTx_inputs (bs : List Byte) (s : State) : (s.appendTx bs).inputs = s.inputs := rfl

@[simp] theorem State.appendTx_sendFails (bs : List Byte) (s : State) : (s.appendTx bs).sendFails = s.sendFails := rfl

@[simp] theorem State.appendTx_freeIdx (bs : List Byte) (s : State) : (s.appendTx bs).freeIdx = s.freeIdx := rfl

/-! ### loadEngine -/

@[simp] theorem State.loadEngine_isOpen (g : CrcEngine) (s : State) : (s.loadEngine g).isOpen = s.isOpen := rfl

@[simp] theorem State.loadEngine_hs (g : CrcEngine) (s : State) : (s.loadEngine g).hs = s.hs := rfl

@[simp] theorem State.loadEngine_rxbuf (g : CrcEngine) (s : State) : (s.loadEngine g).rxbuf = s.rxbuf := rfl

@[simp] theorem State.loadEngine_ds (g : CrcEngine) (s : State) : (s.loadEngine g).ds = s.ds := rfl

@[simp] theorem State.loadEngine_crc (g : CrcEngine) (s : State) : (s.loadEngine g).crc = g.crc := rfl

@[simp] theorem State.loadEngine_wk (g : CrcEngine) (s : State) : (s.loadEngine g).wk = g.wk := rfl

@[simp] theorem State.loadEngine_tx (g : CrcEngine) (s : State) : (s.loadEngine g).tx = s.tx := rfl

@[simp] theorem State.loadEngine_ev (g : CrcEngine) (s : State) : (s.loadEngine g).ev = s.ev := rfl

@[simp] theorem State.loadEngine_inputs (g : CrcEngine) (s : State) : (s.loadEngine g).inputs = s.inputs := rfl

@[simp] theorem State.loadEngine_sendFails (g : CrcEngine) (s : State) : (s.loadEngine g).sendFails = s.sendFails := rfl

@[simp] theorem State.loadEngine_freeIdx (g : CrcEngine) (s : State) : (s.loadEngine g).freeIdx = s.freeIdx := rfl

/-! ### updateDs -/

@[simp] theorem State.updateDs_isOpen (u : Update) (s : State) : (s.updateDs u).isOpen = s.isOpen := rfl

@[simp] theorem State.updateDs_hs (u : Update) (s : State) : (s.updateDs u).hs = s.hs := rfl

@[simp] theorem State.updateDs_rxbuf (u : Update) (s : State) : (s.updateDs u).rxbuf = s.rxbuf := rfl

@[simp] theorem State.updateDs_ds (u : Update) (s : State) : (s.updateDs u).ds = s.ds.apply u := rfl

@[simp] theorem State.updateDs_crc (u : Update) (s : State) : (s.updateDs u).crc = s.crc := rfl

@[simp] theorem State.updateDs_wk (u : Update) (s : State) : (s.updateDs u).wk = s.wk := rfl

@[simp] theorem State.updateDs_tx (u : Update) (s : State) : (s.updateDs u).tx = s.tx := rfl

@[simp] theorem State.updateDs_ev (u : Update) (s : State) : (s.updateDs u).ev = s.ev := rfl

@[simp] theorem State.updateDs_inputs (u : Update) (s : State) : (s.updateDs u).inputs = s.inputs := rfl

@[simp] theorem State.updateDs_sendFails (u : Update) (s : State) : (s.updateDs u).sendFails = s.sendFails := rfl

@[simp] theorem State.updateDs_freeIdx (u : Update) (s : State) : (s.updateDs u).freeIdx = s.freeIdx := rfl

/-! ### openSession -/

@[simp] theorem State.openSession_isOpen (s : State) : (s.openSession).isOpen = true := rfl

@[simp] theorem State.openSession_hs (s : State) : (s.openSession).hs = false := rfl

@[simp] theorem State.openSession_rxbuf (s : State) : (s.openSession).rxbuf = [] := rfl

@[simp] theorem State.openSession_ds (s : State) : (s.openSession).ds = s.ds := rfl

@[simp] theorem State.openSession_crc (s : State) : (s.openSession).crc = s.crc := rfl

@[simp] theorem State.openSession_wk (s : State) : (s.openSession).wk = s.wk := rfl

@[simp] theorem State.openSession_tx (s : State) : (s.openSession).tx = s.tx := rfl

@[simp] theorem State.openSession_ev (s : State) : (s.openSession).ev = s.ev := rfl

@[simp] theorem State.openSession_inputs (s : State) : (s.openSession).inputs = s.inputs := rfl

@[simp] theorem State.openSession_sendFails (s : State) : (s.openSession).sendFails = s.sendFails := rfl

@[simp] theorem State.openSession_freeIdx (s : State) : (s.openSession).freeIdx = s.freeIdx := rfl

/-! ### closeSession -/

@[simp] theorem State.closeSession_isOpen (s : State) : (s.closeSession).isOpen = false := rfl

@[simp] theorem State.closeSession_hs (s : State) : (s.closeSession).hs = s.hs := rfl

@[simp] theorem State.closeSession_rxbuf (s : State) : (s.closeSession).rxbuf = s.rxbuf := rfl

@[simp] theorem State.closeSession_ds (s : State) : (s.closeSession).ds = s.ds := rfl

@[simp] theorem State.closeSession_crc (s : State) : (s.closeSession).crc = s.crc := rfl

@[simp] theorem State.closeSession_wk (s : State) : (s.closeSession).wk = s.wk := rfl

@[simp] theorem State.closeSession_tx (s : State) : (s.closeSession).tx = s.tx := rfl

@[simp] theorem State.closeSession_ev (s : State) : (s.closeSession).ev = s.ev := rfl

@[simp] theorem State.closeSession_inputs (s : State) : (s.closeSession).inputs = s.inputs := rfl

@[simp] theorem State.closeSession_sendFails (s : State) : (s.closeSession).sendFails = s.sendFails := rfl

@[simp] theorem State.closeSession_freeIdx (s : State) : (s.closeSession).freeIdx = s.freeIdx := rfl

/-! ### setRxbuf -/

@[simp] theorem State.setRxbuf_isOpen (b : List Byte) (s : State) : (s.setRxbuf b).isOpen = s.isOpen := rfl

@[simp] theorem State.setRxbuf_hs (b : List Byte) (s : State) : (s.setRxbuf b).hs = s.hs := rfl

@[simp] theorem State.setRxbuf_rxbuf (b : List Byte) (s : State) : (s.setRxbuf b).rxbuf = b := rfl

@[simp] theorem State.setRxbuf_ds (b : List Byte) (s : State) : (s.setRxbuf b).ds = s.ds := rfl

@[simp] theorem State.setRxbuf_crc (b : List Byte) (s : State) : (s.setRxbuf b).crc = s.crc := rfl

@[simp] theorem State.setRxbuf_wk (b : List Byte) (s : State) : (s.setRxbuf b).wk = s.wk := rfl

@[simp] theorem State.setRxbuf_tx (b : List Byte) (s : State) : (s.setRxbuf b).tx = s.tx := rfl

@[simp] theorem State.setRxbuf_ev (b : List Byte) (s : State) : (s.setRxbuf b).ev = s.ev := rfl

@[simp] theorem State.setRxbuf_inputs (b : List Byte) (s : State) : (s.setRxbuf b).inputs = s.inputs := rfl

@[simp] theorem State.setRxbuf_sendFails (b : List Byte) (s : State) : (s.setRxbuf b).sendFails = s.sendFails := rfl

@[simp] theorem State.setRxbuf_freeIdx (b : List Byte) (s : State) : (s.setRxbuf b).freeIdx = s.freeIdx := rfl

/-! ### armSendFault -/

@[simp] theorem State.armSendFault_isOpen (s : State) : (s.armSendFault).isOpen = s.isOpen := rfl

@[simp] theorem State.armSendFault_hs (s : State) : (s.armSendFault).hs = s.hs := rfl

@[simp] theorem State.armSendFault_rxbuf (s : State) : (s.armSendFault).rxbuf = s.rxbuf := rfl

@[simp] theorem State.armSendFault_ds (s : State) : (s.armSendFault).ds = s.ds := rfl

@[simp] theorem State.armSendFault_crc (s : State) : (s.armSendFault).crc = s.crc := rfl

@[simp] theorem State.armSendFault_wk (s : State) : (s.armSendFault).wk = s.wk := rfl

@[simp] theorem State.armSendFault_tx (s : State) : (s.armSendFault).tx = s.tx := rfl

@[simp] theorem State.armSendFault_ev (s : State) : (s.armSendFault).ev = s.ev := rfl

@[simp] theorem State.armSendFault_inputs (s : State) : (s.armSendFault).inputs = s.inputs := rfl

@[simp] theorem State.armSendFault_sendFails (s : State) : (s.armSendFault).sendFails = true := rfl

@[simp] theorem State.armSendFault_freeIdx (s : State) : (s.armSendFault).freeIdx = s.freeIdx := rfl

/-! ### setInputs -/

@[simp] theorem State.setInputs_isOpen (l : List Input) (s : State) : (s.setInputs l).isOpen = s.isOpen := rfl

@[simp] theorem State.setInputs_hs (l : List Input) (s : State) : (s.setInputs l).hs = s.hs := rfl

@[simp] theorem State.setInputs_rxbuf (l : List Input) (s : State) : (s.setInputs l).rxbuf = s.rxbuf := rfl

@[simp] theorem State.setInputs_ds (l : List Input) (s : State) : (s.setInputs l).ds = s.ds := rfl

@[simp] theorem State.setInputs_crc (l : List Input) (s : State) : (s.setInputs l).crc = s.crc := rfl

@[simp] theorem State.setInputs_wk (l : List Input) (s : State) : (s.setInputs l).wk = s.wk := rfl

@[simp] theorem State.setInputs_tx (l : List Input) (s : State) : (s.setInputs l).tx = s.tx := rfl

@[simp] theorem State.setInputs_ev (l : List Input) (s : State) : (s.setInputs l).ev = s.ev := rfl

@[simp] theorem State.setInputs_inputs (l : List Input) (s : State) : (s.setInputs l).inputs = l := rfl

@[simp] theorem State.setInputs_sendFails (l : List Input) (s : State) : (s.setInputs l).sendFails = s.sendFails := rfl

@[simp] theorem State.setInputs_freeIdx (l : List Input) (s : State) : (s.setInputs l).freeIdx = s.freeIdx := rfl

/-! ### markHandshake -/

@[simp] theorem State.markHandshake_isOpen (s : State) : s.markHandshake.isOpen = s.isOpen := by
  unfold State.markHandshake; cases s.hs <;> simp

@[simp] theorem State.markHandshake_hs (s : State) : s.markHandshake.hs = true := by
  unfold State.markHandshake; cases h : s.hs <;> simp [h]

@[simp] theorem State.markHandshake_rxbuf (s : State) : s.markHandshake.rxbuf = s.rxbuf := by
  unfold State.markHandshake; cases s.hs <;> simp

@[simp] theorem State.markHandshake_ds (s : State) : s.markHandshake.ds = s.ds := by
  unfold State.markHandshake; cases s.hs <;> simp

@[simp] theorem State.markHandshake_crc (s : State) : s.markHandshake.crc = s.crc := by
  unfold State.markHandshake; cases s.hs <;> simp

@[simp] theorem State.markHandshake_wk (s : State) : s.markHandshake.wk = s.wk := by
  unfold State.markHandshake; cases s.hs <;> simp

@[simp] theorem State.markHandshake_tx (s : State) : s.markHandshake.tx = s.tx := by
  unfold State.markHandshake; cases s.hs <;> simp

@[simp] theorem State.markHandshake_ev (s : State) : s.markHandshake.ev = s.ev ++ (bif s.hs then [] else [.handshake]) := by
  unfold State.markHandshake; cases s.hs <;> simp

@[simp] theorem State.markHandshake_inputs (s : State) : s.markHandshake.inputs = s.inputs := by
  unfold State.markHandshake; cases s.hs <;> simp

@[simp] theorem State.markHandshake_sendFails (s : State) : s.markHandshake.sendFails = s.sendFails := by
  unfold State.markHandshake; cases s.hs <;> simp

@[simp] theorem State.markHandshake_freeIdx (s : State) : s.markHandshake.freeIdx = s.freeIdx := by
  unfold State.markHandshake; cases s.hs <;> simp

/-! ### raiseError -/

@[simp] theorem State.raiseError_isOpen (c : ErrorClass) (d : ErrorDetail) (s : State) :
    (s.raiseError c d).isOpen = s.isOpen := by
  unfold State.raiseError; cases c.reported <;> simp

@[simp] theorem State.raiseError_hs (c : ErrorClass) (d : ErrorDetail) (s : State) :
    (s.raiseError c d).hs = s.hs := by
  unfold State.raiseError; cases c.reported <;> simp

@[simp] theorem State.raiseError_rxbuf (c : ErrorClass) (d : ErrorDetail) (s : State) :
    (s.raiseError c d).rxbuf = s.rxbuf := by
  unfold State.raiseError; cases c.reported <;> simp

@[simp] theorem State.raiseError_ds (c : ErrorClass) (d : ErrorDetail) (s : State) :
    (s.raiseError c d).ds = s.ds := by
  unfold State.raiseError; cases c.reported <;> simp

@[simp] theorem State.raiseError_crc (c : ErrorClass) (d : ErrorDetail) (s : State) :
    (s.raiseError c d).crc = s.crc := by
  unfold State.raiseError; cases c.reported <;> simp

@[simp] theorem State.raiseError_wk (c : ErrorClass) (d : ErrorDetail) (s : State) :
    (s.raiseError c d).wk = s.wk := by
  unfold State.raiseError; cases c.reported <;> simp

@[simp] theorem State.raiseError_tx (c : ErrorClass) (d : ErrorDetail) (s : State) :
    (s.raiseError c d).tx = s.tx := by
  unfold State.raiseError; cases c.reported <;> simp

@[simp] theorem State.raiseError_ev (c : ErrorClass) (d : ErrorDetail) (s : State) :
    (s.raiseError c d).ev = s.ev ++ (bif c.reported then [.error c d] else []) := by
  unfold State.raiseError; cases c.reported <;> simp

@[simp] theorem State.raiseError_inputs (c : ErrorClass) (d : ErrorDetail) (s : State) :
    (s.raiseError c d).inputs = s.inputs := by
  unfold State.raiseError; cases c.reported <;> simp

@[simp] theorem State.raiseError_sendFails (c : ErrorClass) (d : ErrorDetail) (s : State) :
    (s.raiseError c d).sendFails = s.sendFails := by
  unfold State.raiseError; cases c.reported <;> simp

@[simp] theorem State.raiseError_freeIdx (c : ErrorClass) (d : ErrorDetail) (s : State) :
    (s.raiseError c d).freeIdx = s.freeIdx := by
  unfold State.raiseError; cases c.reported <;> simp

/-! ### send: the sent frame, or the write fault -/

@[simp] theorem State.send_isOpen (T : List Byte) (s : State) :
    (s.send T).isOpen = s.isOpen := by
  unfold State.send State.failSend; cases s.sendFails <;> simp

@[simp] theorem State.send_hs (T : List Byte) (s : State) :
    (s.send T).hs = s.hs := by
  unfold State.send State.failSend; cases s.sendFails <;> simp

@[simp] theorem State.send_rxbuf (T : List Byte) (s : State) :
    (s.send T).rxbuf = s.rxbuf := by
  unfold State.send State.failSend; cases s.sendFails <;> simp

@[simp] theorem State.send_ds (T : List Byte) (s : State) :
    (s.send T).ds = s.ds := by
  unfold State.send State.failSend; cases s.sendFails <;> simp

@[simp] theorem State.send_crc (T : List Byte) (s : State) :
    (s.send T).crc = s.crc := by
  unfold State.send State.failSend; cases s.sendFails <;> simp

@[simp] theorem State.send_wk (T : List Byte) (s : State) :
    (s.send T).wk = s.wk := by
  unfold State.send State.failSend; cases s.sendFails <;> simp

@[simp] theorem State.send_tx (T : List Byte) (s : State) :
    (s.send T).tx = s.tx ++ (bif s.sendFails then T.take (Config.sentBeforeFault s.freeIdx) else T) := by
  unfold State.send State.failSend; cases s.sendFails <;> simp

@[simp] theorem State.send_ev (T : List Byte) (s : State) :
    (s.send T).ev = s.ev ++ [bif s.sendFails then writeFault else .txFrame T] := by
  unfold State.send State.failSend; cases s.sendFails <;> simp [writeFault, ErrorClass.reported]

@[simp] theorem State.send_inputs (T : List Byte) (s : State) :
    (s.send T).inputs = s.inputs := by
  unfold State.send State.failSend; cases s.sendFails <;> simp

@[simp] theorem State.send_sendFails (T : List Byte) (s : State) :
    (s.send T).sendFails = false := by
  unfold State.send State.failSend; cases h : s.sendFails <;> simp [h]

@[simp] theorem State.send_freeIdx (T : List Byte) (s : State) :
    (s.send T).freeIdx = s.freeIdx + (bif s.sendFails then 1 else 0) := by
  unfold State.send State.failSend; cases s.sendFails <;> simp

@[simp] theorem State.snapshot_eq (s : State) : s.snapshot = s.ds := rfl

end Sys2Proof.Machine
end

