-- ==== Sys2Proof/Laws/Ops.lean ====
section
/-! SUPPORT. What the dispatch step and the agents' steps can do, said once per shared operation. -/

namespace Sys2Proof.Machine

open Sys2Proof

/-! ### conclude -/

@[simp] theorem State.conclude_isOpen (r : Reply) (s : State) : (s.conclude r).isOpen = s.isOpen := by
  cases r <;> simp [State.conclude]

@[simp] theorem State.conclude_hs (r : Reply) (s : State) : (s.conclude r).hs = s.hs := by
  cases r <;> simp [State.conclude]

@[simp] theorem State.conclude_rxbuf (r : Reply) (s : State) : (s.conclude r).rxbuf = s.rxbuf := by
  cases r <;> simp [State.conclude]

@[simp] theorem State.conclude_ds (r : Reply) (s : State) : (s.conclude r).ds = s.ds := by
  cases r <;> simp [State.conclude]

@[simp] theorem State.conclude_inputs (r : Reply) (s : State) : (s.conclude r).inputs = s.inputs := by
  cases r <;> simp [State.conclude]

/-! ### dispatchStep -/

@[simp] theorem State.dispatchStep_isOpen (c : DeviceState → List Byte → Reply) (F : List Byte) (s : State) :
    (s.dispatchStep c F).isOpen = s.isOpen := by simp [State.dispatchStep]

@[simp] theorem State.dispatchStep_hs (c : DeviceState → List Byte → Reply) (F : List Byte) (s : State) :
    (s.dispatchStep c F).hs = true := by simp [State.dispatchStep]

@[simp] theorem State.dispatchStep_rxbuf (c : DeviceState → List Byte → Reply) (F : List Byte) (s : State) :
    (s.dispatchStep c F).rxbuf = s.rxbuf := by simp [State.dispatchStep]

@[simp] theorem State.dispatchStep_ds (c : DeviceState → List Byte → Reply) (F : List Byte) (s : State) :
    (s.dispatchStep c F).ds = s.ds := by simp [State.dispatchStep]

@[simp] theorem State.dispatchStep_inputs (c : DeviceState → List Byte → Reply) (F : List Byte) (s : State) :
    (s.dispatchStep c F).inputs = s.inputs := by simp [State.dispatchStep]

/-- The log line and the handshake mark, as one list of events. -/
theorem State.logged_ev (F : List Byte) (s : State) :
    ((s.emit (.rxFrame F)).markHandshake).ev = s.ev ++ logEvents F s.hs := by
  cases h : s.hs <;> simp [logEvents, h]

/-- The events and the bytes a dispatch step adds: the log line, the handshake if it is the first, and one of four
conclusions: a response sent, a response whose send failed, nothing, or an error of class (e) (R196, R214). -/
theorem State.dispatchStep_cases (c : DeviceState → List Byte → Reply) (F : List Byte) (s : State) :
    (∃ T g, c s.ds F = Reply.respond T g ∧ s.sendFails = false ∧ (s.dispatchStep c F).tx = s.tx ++ T ∧
      (s.dispatchStep c F).ev = s.ev ++ logEvents F s.hs ++ [Event.txFrame T]) ∨
    (∃ T g, c s.ds F = Reply.respond T g ∧ s.sendFails = true ∧
      (s.dispatchStep c F).tx = s.tx ++ T.take (Config.sentBeforeFault s.freeIdx) ∧
      (s.dispatchStep c F).ev = s.ev ++ logEvents F s.hs ++ [writeFault]) ∨
    (c s.ds F = Reply.noResponse ∧ (s.dispatchStep c F).tx = s.tx ∧
      (s.dispatchStep c F).ev = s.ev ++ logEvents F s.hs) ∨
    (∃ k, c s.ds F = Reply.error k ∧ (s.dispatchStep c F).tx = s.tx ∧
      (s.dispatchStep c F).ev =
        s.ev ++ logEvents F s.hs ++ [Event.error ErrorClass.invalidNumeric (ErrorDetail.cop k)]) := by
  have hl := State.logged_ev F s
  cases hr : c s.ds F with
  | respond T g =>
    cases hf : s.sendFails with
    | false =>
      left
      refine ⟨T, g, rfl, rfl, ?_, ?_⟩ <;> simp [State.dispatchStep, State.conclude, hr, hf, ← hl]
    | true =>
      right; left
      refine ⟨T, g, rfl, rfl, ?_, ?_⟩ <;> simp [State.dispatchStep, State.conclude, hr, hf, ← hl]
  | noResponse =>
    right; right; left
    refine ⟨rfl, ?_, ?_⟩ <;> simp [State.dispatchStep, State.conclude, hr, ← hl]
  | error k =>
    right; right; right
    refine ⟨k, rfl, ?_, ?_⟩ <;> simp [State.dispatchStep, State.conclude, hr, ErrorClass.reported, ← hl]

end Sys2Proof.Machine
end

