-- ==== Sys2Proof/Laws/PerInstr.lean ====
section
/-! SUPPORT. Statements made per instruction: what holds of every instruction as syntax. -/

namespace Sys2Proof.Laws.EncodesFrame

open Sys2Proof

/-- The encoding of the instruction is structurally valid (R140), and six bytes longer than its tail (R70). -/
def Statement (i : Instr) : Prop :=
  isFrame (encode i) = true ∧ (encode i).length = i.tail.length + 6

theorem snq (adr f3 : Byte) (tail : List Byte) : Statement (.snq adr f3 tail) :=
  ⟨requestFrame_isFrame _ _ _ _, requestFrame_length _ _ _ _⟩

theorem wnet (adr f3 : Byte) (tail : List Byte) : Statement (.wnet adr f3 tail) :=
  ⟨requestFrame_isFrame _ _ _ _, requestFrame_length _ _ _ _⟩

theorem wgrs (adr f3 : Byte) (tail : List Byte) : Statement (.wgrs adr f3 tail) :=
  ⟨requestFrame_isFrame _ _ _ _, requestFrame_length _ _ _ _⟩

theorem stq (adr f3 : Byte) (tail : List Byte) : Statement (.stq adr f3 tail) :=
  ⟨requestFrame_isFrame _ _ _ _, requestFrame_length _ _ _ _⟩

theorem cntq4 (adr : Byte) (tail : List Byte) : Statement (.cntq4 adr tail) :=
  ⟨requestFrame_isFrame _ _ _ _, requestFrame_length _ _ _ _⟩

theorem cntq8 (adr : Byte) (tail : List Byte) : Statement (.cntq8 adr tail) :=
  ⟨requestFrame_isFrame _ _ _ _, requestFrame_length _ _ _ _⟩

theorem cntqOther (adr nw : Byte) (tail : List Byte) : Statement (.cntqOther adr nw tail) :=
  ⟨requestFrame_isFrame _ _ _ _, requestFrame_length _ _ _ _⟩

theorem nop (adr cop f3 : Byte) (tail : List Byte) : Statement (.nop adr cop f3 tail) :=
  ⟨requestFrame_isFrame _ _ _ _, requestFrame_length _ _ _ _⟩

end Sys2Proof.Laws.EncodesFrame
end

