-- ==== Sys2Proof/Laws/Step.lean ====
section
/-! SUPPORT. One step, input by input, and what running a frame means. -/

namespace Sys2Proof.Machine

open Sys2Proof

/-- The rule of the command an instruction selects. -/
def Instr.command : Instr → DeviceState → List Byte → Reply
  | .snq _ _ _ => snq
  | .wnet _ _ _ => wnet
  | .wgrs _ _ _ => wgrs
  | .stq _ _ _ => stq
  | .cntq4 _ _ => cntq
  | .cntq8 _ _ => cntq
  | .cntqOther _ _ _ => cntq
  | .nop _ _ _ _ => nop

/-- Every instruction is the dispatch step of its frame with its command's rule, and ends in a next state. -/
theorem exec_eq_dispatchStep (i : Instr) (s : State) :
    exec i s = .next (s.dispatchStep (Instr.command i) (encode i)) := by
  cases i <;> rfl

/-- A frame that the detector completed is decoded and run. -/
theorem runFrame_requestFrame (a c f : Byte) (t : List Byte) (s : State) :
    runFrame (requestFrame a c f t) s = exec (instrOfFields a c f t) s := by
  simp [runFrame, decodeFrame_requestFrame]

theorem runFrame_ok {F : List Byte} {i : Instr} (h : decodeFrame F = .ok i) (s : State) : runFrame F s = exec i s := by
  simp [runFrame, h]

@[simp] theorem step_nil {s : State} (h : s.inputs = []) : step s = .next s := by simp [step, h]

theorem step_cons {s : State} {a : Input} {rest : List Input} (h : s.inputs = a :: rest) :
    step s = perform a (s.setInputs rest) := by simp [step, h]

/-- Everything the arrival of a byte can do while the link is open (R195): nothing is completed, or a frame is and
runs. -/
theorem rxByte_open {s : State} (h : s.isOpen = true) (x : Byte) :
    ((rxDetect Config.rxBufMax s.rxbuf x).2 = none ∧
      rxByte x s = .next (s.setRxbuf (rxDetect Config.rxBufMax s.rxbuf x).1)) ∨
    (∃ F, (rxDetect Config.rxBufMax s.rxbuf x).2 = some F ∧
      rxByte x s = runFrame F (s.setRxbuf (rxDetect Config.rxBufMax s.rxbuf x).1)) := by
  cases hd : (rxDetect Config.rxBufMax s.rxbuf x).2 with
  | none => left; exact ⟨rfl, by simp [rxByte, h, hd]⟩
  | some F => right; exact ⟨F, rfl, by simp [rxByte, h, hd]⟩

/-- A byte that arrives while the link is closed is lost (R198). -/
theorem rxByte_closed {s : State} (h : s.isOpen = false) (x : Byte) : rxByte x s = .next s := by
  simp [rxByte, h]

/-! ### Runs -/

theorem runSteps_eq_core_run (n : Nat) (s : State) : runSteps n s = Host.Core.run Sys2Proof.core n s := by
  induction n generalizing s with
  | zero => rfl
  | succ n ih =>
    cases hst : step s with
    | next t =>
      have hc : Sys2Proof.core.step s = .next t := hst
      simp only [runSteps, hst, Host.Core.run, hc]
      exact ih t
    | fault r =>
      have hc : Sys2Proof.core.step s = .fault r := hst
      simp only [runSteps, hst, Host.Core.run, hc]
      rfl
    | refused r =>
      have hc : Sys2Proof.core.step s = .refused r := hst
      simp only [runSteps, hst, Host.Core.run, hc]
      rfl

theorem runSteps_succ_next {s t : State} (h : step s = .next t) (n : Nat) : runSteps (n + 1) s = runSteps n t := by
  simp [runSteps, h]

/-! ### The inversion of a step -/

/-- Everything a step that answers a next state can have done, guards included, one constructor per case. -/
inductive StepShape (s : State) : State → Prop where
  | idle : s.inputs = [] → StepShape s s
  | start (cfg : TransportConfig) (rest : List Input) : s.inputs = .start cfg :: rest → s.isOpen = false →
      StepShape s (s.setInputs rest).openSession
  | stop (rest : List Input) : s.inputs = .stop :: rest → StepShape s (s.setInputs rest).closeSession
  | update (u : Update) (rest : List Input) : s.inputs = .update u :: rest →
      StepShape s ((s.setInputs rest).updateDs u)
  | lost (x : Byte) (rest : List Input) : s.inputs = .rx x :: rest → s.isOpen = false →
      StepShape s (s.setInputs rest)
  | buffered (x : Byte) (rest : List Input) : s.inputs = .rx x :: rest → s.isOpen = true →
      (rxDetect Config.rxBufMax s.rxbuf x).2 = none →
      StepShape s ((s.setInputs rest).setRxbuf (rxDetect Config.rxBufMax s.rxbuf x).1)
  | command (x : Byte) (rest : List Input) (i : Instr) : s.inputs = .rx x :: rest → s.isOpen = true →
      isFrame (s.rxbuf ++ [x]) = true → decodeFrame (s.rxbuf ++ [x]) = .ok i →
      StepShape s (((s.setInputs rest).setRxbuf []).dispatchStep (Instr.command i) (encode i))
  | timeout (rest : List Input) : s.inputs = .timeoutDiag :: rest → s.isOpen = true → s.hs = false →
      StepShape s ((s.setInputs rest).emit .timeout)
  | noTimeout (rest : List Input) : s.inputs = .timeoutDiag :: rest → ¬(s.isOpen = true ∧ s.hs = false) →
      StepShape s (s.setInputs rest)
  | openFault (rest : List Input) : s.inputs = .transportFault .onOpen :: rest → s.isOpen = false →
      StepShape s ((s.setInputs rest).raiseError .transportFault (.kind .onOpen))
  | readFault (rest : List Input) : s.inputs = .transportFault .onRead :: rest → s.isOpen = true →
      StepShape s ((s.setInputs rest).raiseError .transportFault (.kind .onRead))
  | noReadFault (rest : List Input) : s.inputs = .transportFault .onRead :: rest → s.isOpen = false →
      StepShape s (s.setInputs rest)
  | armWriteFault (rest : List Input) : s.inputs = .transportFault .onWrite :: rest →
      StepShape s (s.setInputs rest).armSendFault

theorem step_shape {s t : State} (h : step s = .next t) : StepShape s t := by
  cases hin : s.inputs with
  | nil => rw [step_nil hin] at h; cases h; exact .idle hin
  | cons a rest =>
    rw [step_cons hin] at h
    cases a with
    | start cfg =>
      cases ho : s.isOpen with
      | true => simp [perform, hostStart, ho] at h
      | false => simp [perform, hostStart, ho] at h; subst h; exact .start cfg rest hin ho
    | stop => simp [perform, hostStop] at h; subst h; exact .stop rest hin
    | update u => simp [perform, hostUpdate] at h; subst h; exact .update u rest hin
    | timeoutDiag =>
      simp only [perform, timeoutDiag, State.setInputs_isOpen, State.setInputs_hs] at h
      cases ho : s.isOpen <;> cases hh : s.hs <;> simp [ho, hh] at h <;> subst h
      · exact .noTimeout rest hin (by simp [ho])
      · exact .noTimeout rest hin (by simp [ho])
      · exact .timeout rest hin ho hh
      · exact .noTimeout rest hin (by simp [hh])
    | transportFault k =>
      cases k <;> simp only [perform, transportFault, State.setInputs_isOpen] at h
      · cases ho : s.isOpen <;> simp [ho] at h
        subst h; exact .openFault rest hin ho
      · cases ho : s.isOpen <;> simp [ho] at h <;> subst h
        · exact .noReadFault rest hin ho
        · exact .readFault rest hin ho
      · simp at h; subst h; exact .armWriteFault rest hin
    | rx x =>
      simp only [perform] at h
      cases ho : s.isOpen with
      | false => rw [rxByte_closed (by simpa using ho)] at h; simp at h; subst h; exact .lost x rest hin ho
      | true =>
        rcases rxByte_open (s := s.setInputs rest) (by simpa using ho) x with ⟨hn, e⟩ | ⟨F, hF, e⟩
        · rw [e] at h; simp at h; subst h; exact .buffered x rest hin ho hn
        · obtain ⟨rfl, _, hb⟩ := rxDetect_some hF
          rw [e, runFrame] at h
          cases hd : decodeFrame ((s.setInputs rest).rxbuf ++ [x]) with
          | error r => rw [hd] at h; cases h
          | ok i =>
            rw [hd] at h
            simp only [exec_eq_dispatchStep] at h
            rw [hb] at h
            cases h
            exact .command x rest i hin ho (decodeFrame_ok_isFrame hd) hd

/-- Why a step can stop, guards included: a START (also a failing one) while open, or, from a buffer that breaks R27, a
completed sequence that is no frame. -/
theorem step_refused {s : State} {r : Refusal} (h : step s = .refused r) :
    r = .startWhileOpen ∧ s.isOpen = true ∧
      ((∃ cfg rest, s.inputs = .start cfg :: rest) ∨ ∃ rest, s.inputs = .transportFault .onOpen :: rest) := by
  cases hin : s.inputs with
  | nil => rw [step_nil hin] at h; cases h
  | cons a rest =>
    rw [step_cons hin] at h
    cases a with
    | start cfg =>
      cases ho : s.isOpen <;> simp [perform, hostStart, ho] at h
      exact ⟨h.symm, rfl, .inl ⟨cfg, rest, rfl⟩⟩
    | stop => simp [perform, hostStop] at h
    | update u => simp [perform, hostUpdate] at h
    | timeoutDiag =>
      simp only [perform, timeoutDiag, State.setInputs_isOpen, State.setInputs_hs] at h
      cases ho : s.isOpen <;> cases hh : s.hs <;> simp [ho, hh] at h
    | transportFault k =>
      cases k <;> simp only [perform, transportFault, State.setInputs_isOpen] at h
      · cases ho : s.isOpen <;> simp [ho] at h
        exact ⟨h.symm, rfl, .inr ⟨rest, rfl⟩⟩
      · cases ho : s.isOpen <;> simp [ho] at h
      · simp at h
    | rx x =>
      simp only [perform] at h
      cases ho : s.isOpen with
      | false => rw [rxByte_closed (by simpa using ho)] at h; cases h
      | true =>
        rcases rxByte_open (s := s.setInputs rest) (by simpa using ho) x with ⟨hn, e⟩ | ⟨F, hF, e⟩
        · rw [e] at h; cases h
        · rw [e, runFrame] at h
          cases hd : decodeFrame F with
          | error r => simp [hd] at h
          | ok i => simp [hd, exec_eq_dispatchStep] at h

theorem step_fault {s : State} {r : Fault} (h : step s = .fault r) :
    s.isOpen = true ∧ ∃ x rest, s.inputs = .rx x :: rest ∧ closes (s.rxbuf ++ [x]) = true ∧
      isFrame (s.rxbuf ++ [x]) = false := by
  cases hin : s.inputs with
  | nil => rw [step_nil hin] at h; cases h
  | cons a rest =>
    rw [step_cons hin] at h
    cases a with
    | start cfg => cases ho : s.isOpen <;> simp [perform, hostStart, ho] at h
    | stop => simp [perform, hostStop] at h
    | update u => simp [perform, hostUpdate] at h
    | timeoutDiag =>
      simp only [perform, timeoutDiag, State.setInputs_isOpen, State.setInputs_hs] at h
      cases ho : s.isOpen <;> cases hh : s.hs <;> simp [ho, hh] at h
    | transportFault k =>
      cases k <;> simp only [perform, transportFault, State.setInputs_isOpen] at h
      · cases ho : s.isOpen <;> simp [ho] at h
      · cases ho : s.isOpen <;> simp [ho] at h
      · simp at h
    | rx x =>
      simp only [perform] at h
      cases ho : s.isOpen with
      | false => rw [rxByte_closed (by simpa using ho)] at h; cases h
      | true =>
        rcases rxByte_open (s := s.setInputs rest) (by simpa using ho) x with ⟨hn, e⟩ | ⟨F, hF, e⟩
        · rw [e] at h; cases h
        · obtain ⟨rfl, hc, _⟩ := rxDetect_some hF
          refine ⟨rfl, x, rest, rfl, hc, ?_⟩
          rw [e, runFrame] at h
          by_contra hf
          obtain ⟨a, c, f, t, hF'⟩ := isFrame_exists_request (Bool.of_not_eq_false hf)
          simp only [State.setInputs_rxbuf, hF', decodeFrame_requestFrame, exec_eq_dispatchStep] at h
          cases h

end Sys2Proof.Machine
end

