-- ==== Sys2Proof/Tests/Slice0.lean ====
section
/-! SUPPORT. The model's own tests: the smoke tests of WellFormed, decoding of words written out from the spec's
encodings, vectors of spec/95_test_vectors.md, single steps, and a witness for the hypotheses of every statement. -/

namespace Sys2Proof.Tests

open Sys2Proof Sys2Proof.Machine Sys2Proof.Spec

/-! ### Helpers -/

/-- `DS0` of spec/95_test_vectors.md. -/
def ds0 : DeviceState :=
  { addr := 0x14, sn := 0x123456, w10 := 123, settling := false, overload := false, netMode := false,
    status := 0x80, cnt4 := 1234567890, cnt8 := 42 }

/-- An open, handshaken session with the Device State `S`. -/
def session (S : DeviceState) : State := { State.launch S with isOpen := true, hs := true }

/-- An open session that awaits its first frame, with pending inputs. -/
def fresh (inputs : List Input) : State := { State.launch ds0 with isOpen := true, inputs := inputs }

def cfg : TransportConfig := { port := "COM1", baud := .b9600, parity := .none }

def txOf : Host.Outcome State Fault Refusal → Option (List Byte)
  | .next s => some s.tx
  | .fault _ => none
  | .refused _ => none

def evOf : Host.Outcome State Fault Refusal → Option (List Event)
  | .next s => some s.ev
  | .fault _ => none
  | .refused _ => none

def bitsOf : Host.Outcome State Fault Refusal → Option (Bool × Bool × List Byte)
  | .next s => some (s.isOpen, s.hs, s.rxbuf)
  | .fault _ => none
  | .refused _ => none

def refusalOf : Host.Outcome State Fault Refusal → Option Refusal
  | .next _ => none
  | .fault _ => none
  | .refused r => some r

def okOf {ε α : Type} : Except ε α → Option α
  | .ok a => some a
  | .error _ => none

def errOf {ε α : Type} : Except ε α → Option ε
  | .ok _ => none
  | .error e => some e

/-! ### WellFormed: one ill-formed term for each check -/

theorem test_nop_of_a_command_refused : (Instr.nop 0x14#8 0xA1#8 0x00#8 []).rowOk = false := by decide
theorem test_cntqOther_of_populated_index_refused : (Instr.cntqOther 0x14#8 0x08#8 []).wellFormed = false := by decide
theorem test_tail_ending_in_marker_refused : (Instr.cntq4 0x14#8 [0xFF#8]).uncut = false := by decide
theorem test_marker_pair_in_tail_refused :
    (Instr.snq 0x14#8 0x00#8 [0xFF#8, 0xFF#8, 0x00#8]).wellFormed = false := by decide
theorem test_lone_marker_in_tail_accepted : (Instr.snq 0x14#8 0x97#8 [0xFF#8, 0x00#8]).wellFormed = true := by decide

/-! ### Decoding: words written out bit by bit from the encodings of opcode_table.json -/

theorem test_decode_snq :
    decodeTableWord 32 0b11111111000101001010000110010111 = some (.snq 0x14#8 0x97#8 []) := by decide
theorem test_decode_wnet :
    decodeTableWord 32 0b11111111000101001100001010110101 = some (.wnet 0x14#8 0xB5#8 []) := by decide
theorem test_decode_wgrs :
    decodeTableWord 32 0b11111111000101001100001111011100 = some (.wgrs 0x14#8 0xDC#8 []) := by decide
theorem test_decode_stq :
    decodeTableWord 32 0b11111111000101001011111111110100 = some (.stq 0x14#8 0xF4#8 []) := by decide
theorem test_decode_cntq4 :
    decodeTableWord 32 0b11111111000101001100100000000100 = some (.cntq4 0x14#8 []) := by decide
theorem test_decode_cntq8 :
    decodeTableWord 32 0b11111111000101001100100000001000 = some (.cntq8 0x14#8 []) := by decide
theorem test_decode_cntqOther :
    decodeTableWord 32 0b11111111000101001100100000000101 = some (.cntqOther 0x14#8 0x05#8 []) := by decide
theorem test_decode_nop :
    decodeTableWord 32 0b11111111000101000000000101010101 = some (.nop 0x14#8 0x01#8 0x55#8 []) := by decide

/-- V117: a longer request; its bytes 4 to n-3 are kept. -/
theorem test_decode_long_request :
    okOf (decodeFrame [0xFF#8, 0x14#8, 0xA1#8, 0x00#8, 0x01#8, 0x02#8, 0xFF#8, 0xFF#8]) =
      some (.snq 0x14#8 0x00#8 [0x01#8, 0x02#8]) := by decide
/-- V32, V33, V34: rejected by name. -/
theorem test_reject_short : errOf (decodeFrame [0xFF#8, 0x14#8, 0xA1#8, 0xFF#8, 0xFF#8]) = some .tooShort := by decide
theorem test_reject_start :
    errOf (decodeFrame [0x14#8, 0xA1#8, 0x00#8, 0x00#8, 0xFF#8, 0xFF#8]) = some .noStartMarker := by decide
theorem test_reject_end :
    errOf (decodeFrame [0xFF#8, 0x14#8, 0xA1#8, 0x97#8, 0xFF#8, 0x00#8]) = some .noEndMarker := by decide
/-- V76. -/
theorem test_reject_incomplete :
    errOf (decode .unbounded [0x00#8, 0xFF#8, 0x14#8, 0xC2#8, 0xFF#8, 0xFF#8]) =
      some (.incomplete [0xFF#8, 0x14#8, 0xC2#8, 0xFF#8, 0xFF#8]) := by decide

/-! ### CRC Codec (V4 to V29) -/

theorem test_crcBit_xor : crcBit ⟨0x80#8, 0x00#8⟩ = ⟨0x69#8, 0x00#8⟩ := by decide
theorem test_crcBit_both_carries : crcBit ⟨0x80#8, 0x80#8⟩ = ⟨0x68#8, 0x01#8⟩ := by decide
theorem test_crcByte_V9 : crcByte 0x80#8 0x00#8 = 0xB5#8 := by decide +kernel
theorem test_crcByte_V10 : crcByte 0x14#8 0xA1#8 = 0xE3#8 := by decide +kernel
theorem test_checksum_V27 : checksum [0x14#8, 0xA1#8, 0x12#8, 0x34#8, 0x56#8, 0x00#8] = 0x11#8 := by decide +kernel
theorem test_checksum_V29 :
    checksum [0x14#8, 0xA1#8, 0x12#8, 0x34#8, 0x56#8, 0x00#8, 0x11#8] = 0xF7#8 := by decide +kernel

/-! ### BCD Codec (V46 to V63) -/

theorem test_weightEncode_V46 : okOf (weightEncode 123) = some [0x23#8, 0x01#8, 0x00#8] := by decide
theorem test_weightEncode_V52 : errOf (weightEncode 1000000) = some .bcdOverflow := by decide
theorem test_weightDecode_V50 : okOf (weightDecode 0x56#8 0x34#8 0x12#8) = some 123456 := by decide
theorem test_weightDecode_invalid : errOf (weightDecode 0x00#8 0xF0#8 0x00#8) = some .bcdInvalid := by decide
theorem test_counterEncode_V61 :
    okOf (counterEncode 4294967296) = some [0x96#8, 0x72#8, 0x96#8, 0x94#8, 0x42#8] := by decide
theorem test_counterEncode_V63 : errOf (counterEncode 10000000000) = some .bcdOverflow := by decide
theorem test_counterDecode_V59 : okOf (counterDecode 0x90#8 0x78#8 0x56#8 0x34#8 0x12#8) = some 1234567890 := by decide
theorem test_counterDecode_invalid :
    errOf (counterDecode 0x00#8 0x00#8 0x00#8 0x00#8 0xA0#8) = some .bcdInvalid := by decide

/-! ### Frame Codec (V70 to V84) -/

theorem test_detect_V75 :
    detectAll .unbounded [] (List.replicate 7 0xFF#8) = ([List.replicate 6 0xFF#8], [0xFF#8]) := by decide
theorem test_detect_V81 :
    detectAll .unbounded [] [0xFF#8, 0x14#8, 0xC8#8, 0x04#8, 0xFF#8, 0xFF#8, 0xFF#8] =
      ([[0xFF#8, 0x14#8, 0xC8#8, 0x04#8, 0xFF#8, 0xFF#8]], [0xFF#8]) := by decide
theorem test_detect_V82 :
    detectAll (.bounded 0) [] [0xFF#8, 0x01#8, 0x02#8, 0x03#8, 0x04#8, 0x05#8, 0x06#8, 0x07#8] = ([], []) := by decide
theorem test_detect_V83 :
    detectAll (.bounded 0) [] [0xFF#8, 0x14#8, 0xC8#8, 0x04#8, 0x00#8, 0x3A#8, 0xFF#8, 0xFF#8] =
      ([[0xFF#8, 0x14#8, 0xC8#8, 0x04#8, 0x00#8, 0x3A#8, 0xFF#8, 0xFF#8]], []) := by decide
/-- V84: a 10-byte request does not fit 8 bytes; the first 8 are discarded, the end marker stays. -/
theorem test_extract_V84 :
    tryExtractFrame (.bounded 0)
        [0xFF#8, 0x14#8, 0xA1#8, 0x00#8, 0x00#8, 0x00#8, 0x00#8, 0x97#8, 0xFF#8, 0xFF#8] =
      .incomplete [0xFF#8, 0xFF#8] := by decide
theorem test_extract_V79 :
    tryExtractFrame .unbounded [0x01#8, 0x02#8, 0xFF#8, 0x14#8, 0xBF#8, 0xF4#8, 0xFF#8, 0xFF#8, 0xFF#8, 0x14#8] =
      .frame [0xFF#8, 0x14#8, 0xBF#8, 0xF4#8, 0xFF#8, 0xFF#8] [0xFF#8, 0x14#8] := by decide

/-! ### Commands (V100 to V143) -/

theorem test_snq_V100 :
    txOf (exec (.snq 0x14#8 0x97#8 []) (session ds0)) =
      some [0xFF#8, 0x14#8, 0xA1#8, 0x12#8, 0x34#8, 0x56#8, 0x00#8, 0x11#8, 0xFF#8, 0xFF#8] := by decide +kernel
/-- V116: wrong address and CRC byte in the request. -/
theorem test_snq_V116 :
    txOf (exec (.snq 0x99#8 0x00#8 []) (session ds0)) =
      some [0xFF#8, 0x14#8, 0xA1#8, 0x12#8, 0x34#8, 0x56#8, 0x00#8, 0x11#8, 0xFF#8, 0xFF#8] := by decide +kernel
theorem test_wnet_V120 :
    txOf (exec (.wnet 0x14#8 0xB5#8 [])
      (session { ds0 with w10 := BitVec.ofInt 21 (-905), settling := true, overload := true })) =
      some [0xFF#8, 0x14#8, 0xC2#8, 0x05#8, 0x09#8, 0x00#8, 0xB9#8, 0x00#8, 0xB2#8, 0xFF#8, 0xFF#8] := by
  decide +kernel
/-- V129. -/
theorem test_wnet_V129 :
    evOf (exec (.wnet 0x14#8 0xB5#8 []) (session { ds0 with w10 := BitVec.ofInt 21 (-1000000) })) =
      some [.rxFrame [0xFF#8, 0x14#8, 0xC2#8, 0xB5#8, 0xFF#8, 0xFF#8], .error .invalidNumeric (.cop 0xC2#8)] := by
  decide +kernel
theorem test_wgrs_V127 :
    txOf (exec (.wgrs 0x14#8 0xDC#8 []) (session { ds0 with w10 := BitVec.ofInt 21 (-999999), settling := true })) =
      some [0xFF#8, 0x14#8, 0xC3#8, 0x99#8, 0x99#8, 0x99#8, 0x91#8, 0x00#8, 0x20#8, 0xFF#8, 0xFF#8] := by
  decide +kernel
/-- V130: `netMode` is not read. -/
theorem test_wgrs_V130 :
    txOf (exec (.wgrs 0x14#8 0xDC#8 []) (session { ds0 with netMode := true })) =
      some [0xFF#8, 0x14#8, 0xC3#8, 0x23#8, 0x01#8, 0x00#8, 0x01#8, 0x00#8, 0x6A#8, 0xFF#8, 0xFF#8] := by
  decide +kernel
theorem test_stq_V135 :
    txOf (exec (.stq 0x14#8 0xF4#8 []) (session { ds0 with status := 0x5A })) =
      some [0xFF#8, 0x14#8, 0xBF#8, 0x5A#8, 0x00#8, 0x2E#8, 0xFF#8, 0xFF#8] := by decide +kernel
theorem test_cntq4_V141 :
    txOf (exec (.cntq4 0x14#8 [0x3A#8]) (session { ds0 with cnt8 := 10000000000 })) =
      some [0xFF#8, 0x14#8, 0xC8#8, 0x04#8, 0x90#8, 0x78#8, 0x56#8, 0x34#8, 0x12#8, 0x00#8, 0xA6#8, 0xFF#8, 0xFF#8] := by
  decide +kernel
theorem test_cntq8_V139 :
    txOf (exec (.cntq8 0x14#8 [0x04#8]) (session { ds0 with cnt8 := 9999999999 })) =
      some [0xFF#8, 0x14#8, 0xC8#8, 0x08#8, 0x99#8, 0x99#8, 0x99#8, 0x99#8, 0x99#8, 0x00#8, 0x74#8, 0xFF#8, 0xFF#8] := by
  decide +kernel
theorem test_cntq8_V140 :
    evOf (exec (.cntq8 0x14#8 [0x04#8]) (session { ds0 with cnt8 := 10000000000 })) =
      some [.rxFrame [0xFF#8, 0x14#8, 0xC8#8, 0x08#8, 0x04#8, 0xFF#8, 0xFF#8],
        .error .invalidNumeric (.cop 0xC8#8)] := by decide +kernel
theorem test_cntqOther_V110 :
    txOf (exec (.cntqOther 0x14#8 0xFF#8 [0x00#8]) (session ds0)) =
      some [0xFF#8, 0x14#8, 0xC8#8, 0xFF#8, 0x00#8, 0xD1#8, 0xFF#8, 0xFF#8] := by decide +kernel
/-- V112 as the first frame of a session: logged, handshake, nothing sent. -/
theorem test_nop_V112 :
    evOf (exec (.nop 0x14#8 0x01#8 0x55#8 []) (fresh [])) =
      some [.rxFrame [0xFF#8, 0x14#8, 0x01#8, 0x55#8, 0xFF#8, 0xFF#8], .handshake] := by decide +kernel

/-! ### Steps of the agents (V160 to V168) and the host's placing of an instruction -/

theorem test_start_V160 : bitsOf (step { State.reset with inputs := [.start cfg] }) = some (true, false, []) := by decide
theorem test_start_open_V163 : refusalOf (step (fresh [.start cfg])) = some .startWhileOpen := by decide
theorem test_timeout_V165 : evOf (step (fresh [.timeoutDiag])) = some [.timeout] := by decide
theorem test_timeout_V166 : evOf (step { session ds0 with inputs := [.timeoutDiag] }) = some [] := by decide
theorem test_open_fault_V167 :
    evOf (step { State.reset with inputs := [.transportFault .onOpen] }) =
      some [.error .transportFault (.kind .onOpen)] := by decide
theorem test_read_fault_V168 :
    bitsOf (step { fresh [.transportFault .onRead] with rxbuf := [0xFF#8, 0x14#8] }) =
      some (true, false, [0xFF#8, 0x14#8]) := by decide
/-- V169: the write fault's events, whatever part of the frame is sent. -/
theorem test_write_fault_V169 :
    evOf (exec (.stq 0x14#8 0xF4#8 []) { fresh [] with sendFails := true }) =
      some [.rxFrame [0xFF#8, 0x14#8, 0xBF#8, 0xF4#8, 0xFF#8, 0xFF#8], .handshake,
        .error .transportFault (.kind .onWrite)] := by decide +kernel
theorem test_hunt_drops_noise : bitsOf (step (fresh [.rx 0x37#8])) = some (true, false, []) := by decide
/-- R211: the hunt drop is class (a); `FF 14` "is not malformed, it is incomplete". -/
theorem test_malformed_hunt : errorClassOfByte .unbounded ds0 [] 0x37#8 = some .malformedFrame := by decide
theorem test_incomplete_is_no_class : errorClassOfByte .unbounded ds0 [0xFF#8] 0x14#8 = none := by decide
theorem test_error_codes :
    [ErrorClass.malformedFrame, .unsupportedCommand, .unsupportedIndex, .transportFault, .invalidNumeric].map
      ErrorClass.code = [1, 2, 3, 4, 5] := by decide
theorem test_fetch_word_runs :
    evOf (step (State.reset.withFetchWord 32 0xFF000000)) =
      some [.rxFrame [0xFF#8, 0x00#8, 0x00#8, 0x00#8, 0xFF#8, 0xFF#8], .handshake] := by decide +kernel

/-! ### Witnesses: states and operands that meet the hypotheses of the statements, each clause at a boundary -/

/-- The six bytes of `SNQ adr=14` (V100). -/
def snqFrame : List Byte := [0xFF#8, 0x14#8, 0xA1#8, 0x97#8, 0xFF#8, 0xFF#8]

theorem wit_ChecksumIsLinear : ∃ a b : List Byte, a.length = b.length ∧ a ≠ b := ⟨[0x01#8], [0x02#8], by decide⟩

theorem wit_WeightEncodePacksSixDigits : (999999 : Nat) ≤ 999999 ∧ 999999 < (1000000 : Nat) := by decide

theorem wit_CounterEncodePacksTenDigits : (9999999999 : Nat) ≤ 9999999999 ∧ 9999999999 < (10000000000 : Nat) := by
  decide

theorem wit_WeightRoundTrip : ∀ b ∈ ([0x99#8, 0x99#8, 0x99#8] : List Byte), Byte.hi b ≤ 9 ∧ Byte.lo b ≤ 9 := by decide

theorem wit_CounterRoundTrip :
    ∀ b ∈ ([0x99#8, 0x00#8, 0x90#8, 0x09#8, 0x99#8] : List Byte), Byte.hi b ≤ 9 ∧ Byte.lo b ≤ 9 := by decide

/-- Seven bytes in a buffer of capacity 8. -/
theorem seven_bytes_ok :
    RxbufOk (.bounded 0) [0xFF#8, 0x01#8, 0x02#8, 0x03#8, 0x04#8, 0x05#8, 0xFF#8] :=
  ⟨.inr rfl, by decide, by intro m h; cases h; decide⟩

theorem empty_ok : RxbufOk (.bounded 0) [] := ⟨.inl rfl, by decide, by intro m h; cases h; decide⟩

/-- Every clause: hunt; a frame of exactly the capacity; overflow; a byte kept. -/
theorem wit_DetectorStepByCases :
    RxbufOk (.bounded 0) [] ∧ (0x00#8 : Byte) ≠ 0xFF#8 ∧
    RxbufOk (.bounded 0) [0xFF#8, 0x01#8, 0x02#8, 0x03#8, 0x04#8, 0x05#8, 0xFF#8] ∧
    isFrame ([0xFF#8, 0x01#8, 0x02#8, 0x03#8, 0x04#8, 0x05#8, 0xFF#8] ++ [0xFF#8]) = true ∧
    isFrame ([0xFF#8, 0x01#8, 0x02#8, 0x03#8, 0x04#8, 0x05#8, 0xFF#8] ++ [0x00#8]) = false ∧
    (BufferCapacity.bounded 0).max = some ([0xFF#8, 0x01#8, 0x02#8, 0x03#8, 0x04#8, 0x05#8, (0xFF#8 : Byte)].length + 1) ∧
    isFrame ([] ++ [(0xFF#8 : Byte)]) = false ∧
    (BufferCapacity.bounded 0).max ≠ some (([] : List Byte).length + 1) :=
  ⟨empty_ok, by decide, seven_bytes_ok, by decide, by decide, by decide, by decide, by decide⟩

theorem wit_DetectorKeepsBufferInvariant :
    RxbufOk (.bounded 0) [0xFF#8, 0x01#8, 0x02#8, 0x03#8, 0x04#8, 0x05#8, 0xFF#8] ∧
    (rxDetect (.bounded 0) [0xFF#8, 0x01#8, 0x02#8, 0x03#8, 0x04#8, 0x05#8, 0xFF#8] 0xFF#8).2 =
      some [0xFF#8, 0x01#8, 0x02#8, 0x03#8, 0x04#8, 0x05#8, 0xFF#8, 0xFF#8] := ⟨seven_bytes_ok, by decide⟩

/-- Unbounded, and at the least capacity, where an overflow is dropped before the frame. -/
theorem wit_ExtractCutsFirstOccurrence :
    tryExtractFrame .unbounded ([0x00#8] ++ snqFrame ++ [0xFF#8]) = .frame snqFrame [0xFF#8] ∧
    tryExtractFrame (.bounded 0) (0xFF#8 :: List.replicate 7 0x00#8 ++ snqFrame ++ [0xFF#8]) =
      .frame snqFrame [0xFF#8] := by decide

theorem wit_DecodeOfEncode :
    (Instr.snq 0xFF#8 0xFF#8 [0xFF#8, 0x00#8]).wellFormed = true ∧
    fits (.bounded 0) (.snq 0xFF#8 0xFF#8 [0xFF#8, 0x00#8]) ∧
    (Instr.nop 0x14#8 0xFF#8 0xFF#8 [0x00#8, 0x00#8, 0x00#8]).wellFormed = true ∧
    ¬fits (.bounded 0) (.nop 0x14#8 0xFF#8 0xFF#8 [0x00#8, 0x00#8, 0x00#8]) :=
  ⟨by decide, by intro m h; cases h; decide, by decide, fun h => absurd (h 8 rfl) (by decide)⟩

theorem wit_EncodeOfDecodeFrame :
    decodeFrame snqFrame = .ok (.snq 0x14#8 0x97#8 []) ∧ isFrame snqFrame = true := ⟨rfl, by decide⟩

theorem wit_TableRowIsDecodedRow : isFrame snqFrame = true := by decide

/-- The hypothesis of SerialQueryAnswers and StatusQueryAnswers. -/
theorem wit_SerialAndStatusQueryAnswer : (session ds0).sendFails = false := rfl

theorem wit_WeightQueriesAnswer :
    (session { ds0 with w10 := BitVec.ofInt 21 (-999999) }).sendFails = false ∧
    (session { ds0 with w10 := BitVec.ofInt 21 (-999999) }).ds.w10.toInt.natAbs ≤ 999999 := by decide

theorem wit_WeightOutOfBudgetIsClassE :
    999999 < (session { ds0 with w10 := BitVec.ofInt 21 (-1000000) }).ds.w10.toInt.natAbs := by decide

theorem wit_CounterQueriesAnswer :
    (session { ds0 with cnt4 := 9999999999, cnt8 := 9999999999 }).sendFails = false ∧
    (session { ds0 with cnt4 := 9999999999, cnt8 := 9999999999 }).ds.cnt4.toNat ≤ 9999999999 ∧
    (session { ds0 with cnt4 := 9999999999, cnt8 := 9999999999 }).ds.cnt8.toNat ≤ 9999999999 := by decide

theorem wit_CounterOutOfBudgetIsClassE :
    9999999999 < (session { ds0 with cnt4 := 10000000000, cnt8 := 10000000000 }).ds.cnt4.toNat ∧
    9999999999 < (session { ds0 with cnt4 := 10000000000, cnt8 := 10000000000 }).ds.cnt8.toNat := by decide

theorem wit_UnpopulatedIndexAnswers :
    (session ds0).sendFails = false ∧ (0x05#8 : Byte) ≠ 0x04#8 ∧ (0x05#8 : Byte) ≠ 0x08#8 := by decide

theorem wit_UnknownCommandIsSilent :
    reqCop [0xFF#8, 0x14#8, 0xA0#8, 0x00#8, 0xFF#8, 0xFF#8] ∉ [0xA1#8, 0xC2#8, 0xC3#8, 0xBF#8, (0xC8#8 : Byte)] := by
  decide

theorem wit_WriteFaultSendsSomePart :
    (Instr.stq 0x14#8 0xF4#8 []).rowOk = true ∧ ({ session ds0 with sendFails := true } : State).sendFails = true ∧
    ∃ T g, dispatch ds0 (encode (.stq 0x14#8 0xF4#8 [])) = .respond T g := ⟨rfl, rfl, _, _, rfl⟩

/-- One frame for each command byte of the case table, and two frames that agree on the bytes read. -/
theorem wit_DispatchReadsTwoBytes :
    (∀ c ∈ [0xA1#8, 0xC2#8, 0xC3#8, 0xBF#8, 0xC8#8, (0x00#8 : Byte)],
      isFrame (requestFrame 0x14#8 c 0x04#8 []) = true ∧ reqCop (requestFrame 0x14#8 c 0x04#8 []) = c) ∧
    isFrame (requestFrame 0x14#8 0xC8#8 0x04#8 [0x01#8]) = true ∧
    (requestFrame 0x99#8 0xC8#8 0x04#8 [])[2]? = (requestFrame 0x14#8 0xC8#8 0x04#8 [0x01#8])[2]? ∧
    (requestFrame 0x99#8 0xC8#8 0x04#8 [])[3]? = (requestFrame 0x14#8 0xC8#8 0x04#8 [0x01#8])[3]? := by decide

theorem wit_ExecIsDispatchStepOfFrame : (Instr.cntqOther 0x14#8 0x05#8 []).rowOk = true := by decide

/-- Two banks that agree on all the fields the clauses name and differ in `netMode`; one frame for each clause. -/
theorem wit_CommandsReadTheirFieldsOnly :
    ds0 ≠ { ds0 with netMode := true } ∧ ds0.addr = ({ ds0 with netMode := true } : DeviceState).addr ∧
    ds0.sn = ({ ds0 with netMode := true } : DeviceState).sn ∧
    ds0.w10 = ({ ds0 with netMode := true } : DeviceState).w10 ∧
    ds0.status = ({ ds0 with netMode := true } : DeviceState).status ∧
    (∀ c ∈ [0xA1#8, 0xC2#8, 0xC3#8, 0xBF#8, (0xC8#8 : Byte)], reqCop (requestFrame 0x14#8 c 0x04#8 []) = c) ∧
    reqNw (requestFrame 0x14#8 0xC8#8 0x04#8 []) = 0x04#8 ∧ reqNw (requestFrame 0x14#8 0xC8#8 0x08#8 []) = 0x08#8 ∧
    reqNw (requestFrame 0x14#8 0xC8#8 0x09#8 []) ≠ 0x08#8 := by decide

theorem wit_NetModeHasNoEffect : ∃ t, exec (.wnet 0x14#8 0xB5#8 []) (session ds0) = .next t := ⟨_, rfl⟩

/-- A completed frame, a byte dropped in hunt, an overflow, an unfinished sequence. -/
theorem wit_ErrorClassDecidesReply :
    isFrame snqFrame = true ∧ RxbufOk (.bounded 0) [] ∧ (0x37#8 : Byte) ≠ 0xFF#8 ∧
    RxbufOk (.bounded 0) [0xFF#8, 0x01#8, 0x02#8, 0x03#8, 0x04#8, 0x05#8, 0xFF#8] ∧
    errorClassOfByte (.bounded 0) ds0 [0xFF#8, 0x01#8, 0x02#8, 0x03#8, 0x04#8, 0x05#8, 0xFF#8] 0x00#8 =
      some .malformedFrame ∧
    isFrame ([] ++ [(0xFF#8 : Byte)]) = false ∧
    (BufferCapacity.bounded 0).max ≠ some (([] : List Byte).length + 1) :=
  ⟨by decide, empty_ok, by decide, seven_bytes_ok, by decide, by decide, by decide⟩

theorem wit_ResponsesAreWellBuilt :
    (Instr.cntq8 0x14#8 [0x04#8]).rowOk = true ∧
    ∃ T g, dispatch ds0 (encode (.cntq8 0x14#8 [0x04#8])) = .respond T g := ⟨rfl, _, _, rfl⟩

theorem wit_MarkerBytesInResponses :
    (∃ bs, weightEncode 999999 = .ok bs) ∧ (∃ bs, counterEncode 9999999999 = .ok bs) ∧
    reqCop (requestFrame 0x14#8 0xBF#8 0x00#8 []) = 0xBF#8 ∧ reqCop snqFrame = 0xA1#8 ∧
    reqCop (requestFrame 0x14#8 0xC8#8 0xFF#8 []) = 0xC8#8 ∧ reqNw (requestFrame 0x14#8 0xC8#8 0xFF#8 []) = 0xFF#8 :=
  ⟨⟨_, rfl⟩, ⟨_, rfl⟩, rfl, rfl, rfl, rfl⟩

/-- The hypotheses, and that of the last clause: a command that is not answered. -/
theorem wit_CommandFrame :
    (Instr.nop 0x14#8 0x01#8 0x55#8 []).rowOk = true ∧
    (∃ t, exec (.nop 0x14#8 0x01#8 0x55#8 []) (session ds0) = .next t) ∧
    ∀ T g, dispatch (session ds0).ds (encode (.nop 0x14#8 0x01#8 0x55#8 [])) ≠ .respond T g := by
  refine ⟨rfl, ⟨_, rfl⟩, ?_⟩
  intro T g h
  cases h

theorem wit_InBudgetCommandsAnswer :
    (Instr.wgrs 0x14#8 0xDC#8 []).rowOk = true ∧ (Instr.wgrs 0x14#8 0xDC#8 []).row ≠ .nop ∧
    (session ds0).ds.inBudget = true ∧ (session ds0).sendFails = false := by decide

/-- The state in which the next byte completes `SNQ adr=14`. -/
def atLastByte : State := { fresh [.rx 0xFF#8] with rxbuf := snqFrame.dropLast }

theorem wit_StepRunsDecodedRequest :
    atLastByte.isOpen = true ∧ atLastByte.inputs = [.rx 0xFF#8] ∧ isFrame (atLastByte.rxbuf ++ [0xFF#8]) = true ∧
    decodeFrame (atLastByte.rxbuf ++ [0xFF#8]) = .ok (.snq 0x14#8 0x97#8 []) := ⟨rfl, rfl, by decide, rfl⟩

/-- A request of six bytes fits every receive buffer. -/
theorem six_bytes_fit (cap : BufferCapacity) : fits cap (.snq 0x14#8 0x97#8 []) := by
  intro m h
  cases cap with
  | unbounded => cases h
  | bounded k =>
    simp only [BufferCapacity.max, Option.some.injEq] at h
    subst h
    simp only [encode, requestFrame, List.cons_append, List.nil_append, List.length_cons, List.length_nil]
    omega

theorem wit_RequestBurstRunsInOrder :
    (∀ i ∈ [Instr.snq 0x14#8 0x97#8 [], Instr.snq 0x14#8 0x97#8 []],
      i.wellFormed = true ∧ fits Config.rxBufMax i) ∧
    (fresh ((snqFrame ++ snqFrame).map .rx)).isOpen = true ∧ (fresh ((snqFrame ++ snqFrame).map .rx)).rxbuf = [] ∧
    (fresh ((snqFrame ++ snqFrame).map .rx)).inputs =
      ([Instr.snq 0x14#8 0x97#8 [], Instr.snq 0x14#8 0x97#8 []].flatMap encode).map Input.rx ++ [] := by
  refine ⟨?_, rfl, rfl, rfl⟩
  intro i hi
  have : i = .snq 0x14#8 0x97#8 [] := by simpa using hi
  subst this
  exact ⟨by decide, six_bytes_fit _⟩

theorem wit_StrayMarkerShiftsRequest :
    hasMarkPair (0x97#8 :: [] ++ [0xFF#8]) = false ∧
    ∀ m, (BufferCapacity.bounded 0).max = some m → ([] : List Byte).length + 7 ≤ m :=
  ⟨by decide, by intro m h; cases h; decide⟩

theorem wit_SessionResetIsStopThenStart :
    ({ State.reset with inputs := [.start cfg] } : State).isOpen = false ∧
    (fresh [.stop]).inputs = [.stop] ∧
    (∃ t, step (fresh [.stop]) = .next t ∧ (fresh [.stop]).isOpen = true ∧ t.isOpen = false) ∧
    ({ session ds0 with isOpen := false, inputs := [.start cfg] } : State).hs = true ∧
    ∃ t, step { session ds0 with isOpen := false, inputs := [.start cfg] } = .next t ∧ t.hs = false :=
  ⟨rfl, rfl, ⟨_, rfl, rfl, rfl⟩, rfl, _, rfl, rfl⟩

theorem wit_StartWhileOpenIsRefused :
    (fresh [.start cfg]).isOpen = true ∧ (fresh [.start cfg]).inputs = [.start cfg] ∧
    (fresh [.transportFault .onOpen]).isOpen = true ∧
    (fresh [.transportFault .onOpen]).inputs = [.transportFault .onOpen] := by decide

theorem wit_UpdateWritesNamedFields :
    (fresh [.update { w10 := some 7 }]).inputs = .update { w10 := some 7 } :: [] := rfl

/-- A transition of each kind: START, the first frame, STOP. -/
theorem wit_SessionPhaseTransitions :
    (∃ t, step { State.reset with inputs := [.start cfg] } = .next t ∧ t.phase = .awaitingHandshake) ∧
    (∃ t, step atLastByte = .next t ∧ t.phase = .handshakeComplete) ∧
    (∃ t, step (fresh [.stop]) = .next t ∧ t.phase = .closed) ∧
    atLastByte.phase = .awaitingHandshake ∧ isFrame (atLastByte.rxbuf ++ [0xFF#8]) = true :=
  ⟨⟨_, rfl, rfl⟩, ⟨_, rfl, rfl⟩, ⟨_, rfl, rfl⟩, rfl, by decide⟩

theorem wit_HandshakeEventOncePerSession :
    ∃ t, step atLastByte = .next t ∧ atLastByte.hs = false ∧ t.hs = true := ⟨_, rfl, rfl, rfl⟩

theorem wit_WritersOfState :
    atLastByte.inputs = .rx 0xFF#8 :: [] ∧ ∃ t, step atLastByte = .next t ∧ t.hs ≠ atLastByte.hs :=
  ⟨rfl, _, rfl, by decide⟩

/-- The clauses about the model's own fields: a write fault sets `sendFails`, a byte whose answer fails clears it and
uses a free value. -/
theorem wit_WritersOfState_own :
    (∃ t, step (fresh [.transportFault .onWrite]) = .next t ∧
      t.sendFails ≠ (fresh [.transportFault .onWrite]).sendFails) ∧
    (∃ t, step { atLastByte with sendFails := true } = .next t ∧ t.sendFails ≠ true ∧
      t.freeIdx ≠ atLastByte.freeIdx) :=
  ⟨⟨_, rfl, by decide⟩, _, rfl, by decide, by decide⟩

theorem wit_OutputsOnlyGrow : ∃ t, step atLastByte = .next t := ⟨_, rfl⟩

theorem wit_TimeoutOnlyWhileAwaiting :
    (fresh [.timeoutDiag]).inputs = [.timeoutDiag] ∧
    ((fresh [.timeoutDiag]).isOpen = true ∧ (fresh [.timeoutDiag]).hs = false) ∧
    ¬((session ds0).isOpen = true ∧ (session ds0).hs = false) := by decide

theorem wit_OpenAndReadFaultsOnlyLog :
    ({ State.reset with inputs := [.transportFault .onOpen] } : State).isOpen = false ∧
    (fresh [.transportFault .onRead]).inputs = [.transportFault .onRead] ∧
    (fresh [.transportFault .onRead]).isOpen = true ∧
    ({ State.reset with inputs := [.transportFault .onRead] } : State).isOpen = false ∧
    (fresh [.transportFault .onWrite]).inputs = [.transportFault .onWrite] := by decide

theorem wit_BytesWhileClosedAreLost :
    ({ State.reset with inputs := snqFrame.map .rx } : State).isOpen = false ∧
    ({ State.reset with inputs := snqFrame.map .rx } : State).inputs = snqFrame.map Input.rx ++ [] := by decide

/-- A launch state meets the invariant, whatever its inputs, open or closed. -/
theorem launch_inv (S : DeviceState) (o : Bool) (l : List Input) :
    Inv { State.launch S with isOpen := o, inputs := l } where
  rxbuf := ⟨.inl rfl, fun k _ => by simp [State.launch, isFrame, closes, MIN_FRAME], fun m h => by
    cases hc : Config.rxBufMax with
    | unbounded => simp [hc, BufferCapacity.max] at h
    | bounded k => simp [hc, BufferCapacity.max] at h; simp [State.launch]; omega⟩
  logged := fun F h => by simp [State.launch, rxFrames] at h
  handshake := fun h => by simp [State.launch] at h
  built := fun T h => by simp [State.launch, txFrames] at h
  sent := fun _ => by simp [State.launch, txFrames]

/-- The clauses about a step: a byte dropped in hunt, and the first byte of a frame. -/
theorem wit_ErrorClassDecidesReply_step :
    errorClassOfByte Config.rxBufMax (fresh [.rx 0x37#8]).ds (fresh [.rx 0x37#8]).rxbuf 0x37#8 =
      some .malformedFrame ∧
    errorClassOfByte Config.rxBufMax (fresh [.rx 0xFF#8]).ds (fresh [.rx 0xFF#8]).rxbuf 0xFF#8 = none ∧
    isFrame ((fresh [.rx 0xFF#8]).rxbuf ++ [0xFF#8]) = false ∧
    RxbufOk Config.rxBufMax (fresh [.rx 0xFF#8]).rxbuf :=
  ⟨rfl, rfl, rfl, (launch_inv ds0 true []).rxbuf⟩

/-- The hypotheses of StepKeepsInvariant. -/
theorem wit_StepKeepsInvariant :
    Inv { State.launch ds0 with inputs := [.start cfg] } ∧
    ∃ t, step { State.launch ds0 with inputs := [.start cfg] } = .next t := ⟨launch_inv _ false _, _, rfl⟩

/-- The hypotheses of NothingIsFatal, in a state whose step is refused. -/
theorem wit_NothingIsFatal : Inv (fresh [.start cfg]) ∧ step (fresh [.start cfg]) = .refused .startWhileOpen :=
  ⟨launch_inv ds0 true _, rfl⟩

theorem wit_EveryInputIsProcessed :
    Inv { State.launch ds0 with inputs := [.start cfg, .rx 0xFF#8, .stop, .start cfg] } ∧
    startsOnlyWhileClosed false [.start cfg, .rx 0xFF#8, .stop, .start cfg] = true := ⟨launch_inv _ false _, by decide⟩

end Sys2Proof.Tests
end

section
/-! SUPPORT. A word as the weighted sum of its bits, and the STATUS byte it gives (spec/30_encoding.md R74). -/

namespace Sys2Proof

/-- The low `n` bits of a word are worth the sum of the weights of those that are set. -/
theorem toNat_setWidth_eq_sum {w : Nat} (x : BitVec w) (n : Nat) :
    (x.setWidth n).toNat = ∑ k ∈ Finset.range n, if x.getLsbD k then 2 ^ k else 0 := by
  induction n with
  | zero => simp [Nat.mod_one]
  | succ n ih =>
    rw [BitVec.setWidth_succ, BitVec.toNat_cons', ih, Finset.sum_range_succ_comm, Nat.shiftLeft_eq]
    cases x.getLsbD n <;> simp

theorem eq_ofNat_sum_bits {w : Nat} (x : BitVec w) :
    x = BitVec.ofNat w (∑ k ∈ Finset.range w, if x.getLsbD k then 2 ^ k else 0) := by
  rw [← toNat_setWidth_eq_sum, BitVec.setWidth_eq, BitVec.ofNat_toNat, BitVec.setWidth_eq]

end Sys2Proof

namespace Sys2Proof.Machine

open Sys2Proof

/-- The status register in the masks of R74: flag `f` weighs `2 ^ f.bit`. -/
theorem status_eq_sum_masks (S : DeviceState) :
    S.status = BitVec.ofNat 8
      ((if S.flag .reweighing then 0x80 else 0) + (if S.flag .error then 0x40 else 0)
        + (if S.flag .stopMode then 0x20 else 0) + (if S.flag .cycleComplete then 0x10 else 0)
        + (if S.flag .paused then 0x08 else 0) + (if S.flag .loading then 0x04 else 0)
        + (if S.flag .unloading then 0x02 else 0) + (if S.flag .onPass then 0x01 else 0)) := by
  have h := eq_ofNat_sum_bits S.status
  simp only [Finset.sum_range_succ_comm, Finset.sum_range_zero, add_zero, ← add_assoc] at h
  exact h

/-- Settles O39: `Assemble` puts the data byte fourth, and a register is the sum of the weights of its set bits. -/
theorem statusByteLayout : Obligations.StatusByteLayout := by
  intro S F
  exact ⟨_, _, assemble_eq S F [statusByte S], rfl, status_eq_sum_masks S⟩

end Sys2Proof.Machine
end

section
/-! SUPPORT. The CRC iteration in arithmetic, and a byte fed to a cleared accumulator (spec/40_crc.md R100 to R102). -/

namespace Sys2Proof

theorem Byte.ofBit_msb_eq_ofNat (v : Byte) : Byte.ofBit v.msb = BitVec.ofNat 8 (v.toNat / 128) := by
  have hv := v.isLt
  rw [BitVec.msb_eq_decide]
  by_cases h : 128 ≤ v.toNat
  · rw [show v.toNat / 128 = 1 by omega]; simp [Byte.ofBit, h]
  · rw [show v.toNat / 128 = 0 by omega]; simp [Byte.ofBit, h]

/-- A left shift leaves bit 0 free, so putting a bit there by OR adds it. -/
theorem Byte.shiftLeft_one_or_ofBit_msb (v w : Byte) :
    v <<< 1 ||| Byte.ofBit w.msb = BitVec.ofNat 8 (v.toNat * 2 % 256 + w.toNat / 128) := by
  have hdisjoint : v <<< 1 &&& Byte.ofBit w.msb = 0#8 := by
    cases w.msb
    · simp [Byte.ofBit]
    · apply BitVec.eq_of_getLsbD_eq
      intro i _
      cases i <;> simp [Byte.ofBit]
  rw [← BitVec.add_eq_or_of_and_eq_zero _ _ hdisjoint, Byte.ofBit_msb_eq_ofNat, BitVec.ofNat_add]
  congr 1
  apply BitVec.eq_of_toNat_eq
  simp [Nat.shiftLeft_eq]

end Sys2Proof

namespace Sys2Proof.Machine

open Sys2Proof

theorem crcBit_wk_eq_ofNat (g : CrcEngine) :
    (crcBit g).wk = BitVec.ofNat 8 (g.wk.toNat * 2 % 256 + g.wk.toNat / 128) :=
  Byte.shiftLeft_one_or_ofBit_msb g.wk g.wk

theorem crcBit_crc_eq_ofNat (g : CrcEngine) :
    (crcBit g).crc =
      if 128 ≤ g.crc.toNat then BitVec.ofNat 8 (g.crc.toNat * 2 % 256 + g.wk.toNat / 128) ^^^ CRC_POLY
      else BitVec.ofNat 8 (g.crc.toNat * 2 % 256 + g.wk.toNat / 128) := by
  simp only [crcBit, Byte.shiftLeft_one_or_ofBit_msb]
  rw [BitVec.msb_eq_decide, Bool.cond_decide]

/-- Settles O1: OR into the bit a shift left free is addition, for `wk` and for `crc`. -/
theorem crcBitIsOneShiftAndXor : Obligations.CrcBitIsOneShiftAndXor :=
  fun crc wk => ⟨crcBit_wk_eq_ofNat ⟨crc, wk⟩, crcBit_crc_eq_ofNat ⟨crc, wk⟩⟩

/-- While bit 7 of the accumulator is 0, an iteration only shifts the top bit of `wk` in. -/
theorem crcBit_crc_toNat_of_lt {g : CrcEngine} (h : g.crc.toNat < 128) :
    (crcBit g).crc.toNat = g.crc.toNat * 2 + g.wk.toNat / 128 := by
  rw [crcBit_crc_eq_ofNat, if_neg (by omega), BitVec.toNat_ofNat]
  omega

/-- The low seven bits of `wk` move up by one place. -/
theorem crcBit_wk_toNat_div_two (g : CrcEngine) : (crcBit g).wk.toNat / 2 = g.wk.toNat % 128 := by
  rw [crcBit_wk_eq_ofNat, BitVec.toNat_ofNat, Nat.mod_eq_of_lt (by omega)]
  omega

/-- `n` iterations on an accumulator whose top `n` bits are 0 only shift the top `n` bits of `wk` in. -/
theorem crcBits_crc_toNat_of_lt {n k : Nat} {g : CrcEngine} (hnk : n + k = 8) (h : g.crc.toNat < 2 ^ k) :
    (crcBits n g).crc.toNat = g.crc.toNat * 2 ^ n + g.wk.toNat / 2 ^ k := by
  induction n generalizing k g with
  | zero =>
    obtain rfl : k = 8 := by omega
    simp [crcBits, Nat.div_eq_of_lt g.wk.isLt]
  | succ n ih =>
    have hcrc : (crcBit g).crc.toNat = g.crc.toNat * 2 + g.wk.toNat / 128 :=
      crcBit_crc_toNat_of_lt (h.trans_le (Nat.pow_le_pow_right two_pos (show k ≤ 7 by omega)))
    have hfree : (crcBit g).crc.toNat < 2 ^ (k + 1) := by
      rw [hcrc, pow_succ]
      omega
    have hrest : (crcBit g).wk.toNat / 2 ^ (k + 1) = g.wk.toNat % 128 / 2 ^ k := by
      rw [pow_succ', ← Nat.div_div_eq_div_mul, crcBit_wk_toNat_div_two]
    have htop : g.wk.toNat / 2 ^ k = g.wk.toNat / 128 * 2 ^ n + g.wk.toNat % 128 / 2 ^ k := by
      have h128 : 2 ^ n * 2 ^ k = 128 := by rw [← pow_add, show n + k = 7 by omega]; rfl
      calc g.wk.toNat / 2 ^ k
          _ = (g.wk.toNat % 128 + g.wk.toNat / 128 * 2 ^ n * 2 ^ k) / 2 ^ k := by
            rw [mul_assoc, h128, Nat.mod_add_div']
          _ = g.wk.toNat / 128 * 2 ^ n + g.wk.toNat % 128 / 2 ^ k := by
            rw [Nat.add_mul_div_right _ _ (Nat.two_pow_pos k), add_comm]
    rw [crcBits, ih (by omega) hfree, hcrc, hrest, htop]
    ring

/-- All eight bits of a byte enter a cleared accumulator before any bit leaves it (R101). -/
@[simp] theorem crcByte_zero_left (b : Byte) : crcByte 0x00#8 b = b := by
  have h : (crcByte 0x00#8 b).toNat = 0 * 2 ^ 8 + b.toNat / 2 ^ 0 :=
    crcBits_crc_toNat_of_lt (g := ⟨0x00#8, b⟩) rfl Nat.one_pos
  apply BitVec.eq_of_toNat_eq
  simpa using h

@[simp] theorem checksum_singleton (b : Byte) : checksum [b] = b := crcByte_zero_left b

@[simp] theorem checksum_zero_cons (m : List Byte) : checksum (0x00#8 :: m) = checksum m := by
  induction m using List.reverseRecOn with
  | nil => exact checksum_singleton 0x00#8
  | append_singleton m b ih => rw [← List.cons_append, checksum_concat, checksum_concat, ih]

/-- Settles O2: the loop by its last byte, the corner cases through a cleared accumulator, and the rule's fixed values
by evaluation. -/
theorem checksumFeedsBytesInOrder : Obligations.ChecksumFeedsBytesInOrder :=
  ⟨checksum_nil, checksum_concat, checksum_singleton, checksum_zero_cons, by decide +kernel, by decide +kernel⟩

end Sys2Proof.Machine
end

section
/-! SUPPORT. A packed byte in arithmetic, and the digit pairs of the two packings (spec/41_bcd.md R119 to R127). -/

namespace Sys2Proof.Machine

open Sys2Proof Sys2Proof.Spec

/-- The value of a packed byte (R119): the shift leaves the low nibble free, so the OR adds `l` there. -/
theorem pack_eq_ofNat {h l : Nat} (hl : l < 16) : pack h l = BitVec.ofNat 8 (16 * h + l) := by
  have hsum : 16 * h + l = h <<< 4 ||| l := by
    rw [← Nat.shiftLeft_add_eq_or_of_lt (i := 4) hl, Nat.shiftLeft_eq, Nat.mul_comm]
  have hshift : BitVec.ofNat 8 h <<< 4 = BitVec.ofNat 8 (h <<< 4) := by
    apply BitVec.eq_of_toNat_eq
    simp [Nat.shiftLeft_eq]
  rw [hsum, BitVec.ofNat_or, pack, hshift]

theorem digit_lt_ten (v N k : Nat) : digit v N k < 10 := Nat.mod_lt _ (by decide)

/-- Digit `k` from the left and its right neighbour are pair `j` from the right when `2 * j` digits follow them. -/
theorem pack_digit_eq_bcdPair (v : Nat) {N k j : Nat} (hN : k + 2 + 2 * j = N) :
    pack (digit v N k) (digit v N (k + 1)) = bcdPair v j := by
  have hhigh : N - 1 - k = 2 * j + 1 := by omega
  have hlow : N - 1 - (k + 1) = 2 * j := by omega
  rw [pack_eq_ofNat ((digit_lt_ten v N (k + 1)).trans (by decide)), digit, digit, hhigh, hlow, bcdPair]

theorem weightEncode_eq_bcdPairs {m : Nat} (h : m ≤ W_MAX) :
    weightEncode m = .ok [bcdPair m 0, bcdPair m 1, bcdPair m 2] := by
  have hpair {k j : Nat} := pack_digit_eq_bcdPair m (N := W_DIGITS) (k := k) (j := j)
  rw [weightEncode_in h, hpair (k := 4) (j := 0) rfl, hpair (k := 2) (j := 1) rfl, hpair (k := 0) (j := 2) rfl]

theorem counterEncode_eq_bcdPairs {c : Nat} (h : c ≤ C_MAX) :
    counterEncode c = .ok [bcdPair c 0, bcdPair c 1, bcdPair c 2, bcdPair c 3, bcdPair c 4] := by
  have hpair {k j : Nat} := pack_digit_eq_bcdPair c (N := C_DIGITS) (k := k) (j := j)
  rw [counterEncode_in h, hpair (k := 8) (j := 0) rfl, hpair (k := 6) (j := 1) rfl, hpair (k := 4) (j := 2) rfl,
    hpair (k := 2) (j := 3) rfl, hpair (k := 0) (j := 4) rfl]

/-- Settles O7: within the budget each byte is a packed pair of neighbouring digits, above it the test refuses. -/
theorem weightEncodePacksSixDigits : Obligations.WeightEncodePacksSixDigits :=
  fun _ => ⟨weightEncode_eq_bcdPairs, weightEncode_over⟩

/-- Settles O8: the same two cases for five pairs. -/
theorem counterEncodePacksTenDigits : Obligations.CounterEncodePacksTenDigits :=
  fun _ => ⟨counterEncode_eq_bcdPairs, counterEncode_over⟩

end Sys2Proof.Machine
end

section
/-! SUPPORT. The frame predicate by index lookups, and the serializer as the dispatcher calls it (spec/42_frame.md R140
and R150). -/

namespace Sys2Proof.Machine

open Sys2Proof

/-- Where the element exists, `byteAt` and the lookup agree. -/
theorem byteAt_eq_iff {s : List Byte} {i : Nat} (h : i < s.length) (b : Byte) : byteAt s i = b ↔ s[i]? = some b := by
  simp [byteAt, h]

theorem isFrame_iff_byteAt (s : List Byte) :
    isFrame s = true ↔
      6 ≤ s.length ∧ byteAt s 0 = MARK ∧ byteAt s (s.length - 2) = MARK ∧ byteAt s (s.length - 1) = MARK := by
  simp only [isFrame, closes, Bool.and_eq_true, decide_eq_true_eq, beq_iff_eq]
  exact ⟨fun ⟨⟨⟨hlen, hlast⟩, hprev⟩, hfirst⟩ => ⟨hlen, hfirst, hprev, hlast⟩,
    fun ⟨hlen, hfirst, hprev, hlast⟩ => ⟨⟨⟨hlen, hlast⟩, hprev⟩, hfirst⟩⟩

/-- Settles O12: with six bytes every index the predicate reads exists, so its tests are the lookups. -/
theorem isFrameIsMarkersAndLength : Obligations.IsFrameIsMarkersAndLength := by
  intro s
  rw [isFrame_iff_byteAt]
  refine and_congr_right fun hlen => ?_
  rw [byteAt_eq_iff (by omega), byteAt_eq_iff (by omega), byteAt_eq_iff (by omega), MARK]

@[simp] theorem buildFrame_length (a c : Byte) (p : List Byte) (k : Byte) :
    (buildFrame a c p k).length = p.length + 6 := by
  simp [buildFrame]

/-- Address, command and CRC byte are the three bytes a frame needs between its markers, whatever the payload. -/
theorem buildFrame_isFrame (a c : Byte) (p : List Byte) (k : Byte) : isFrame (buildFrame a c p k) = true :=
  (isFrame_iff _).mpr ⟨[a, c] ++ p ++ [k], by simp, buildFrame_eq a c p k⟩

/-- The dispatcher serializes the parts of the response body with the body's checksum (R161). -/
theorem assemble_eq_buildFrame (S : DeviceState) (F data : List Byte) :
    assemble S F data =
      .respond (buildFrame S.addr (reqCop F) (data ++ [SLOT]) (checksum (responseBody S F data)))
        { crc := checksum (responseBody S F data), wk := SLOT } := by
  rw [assemble_eq, buildFrame_eq]
  simp [responseBody]

/-- Settles O13: the emitted bytes and the dispatcher's operands, where `g` is the engine the checksum leaves. -/
theorem buildFrameEmitsMarkersAroundPayload : Obligations.BuildFrameEmitsMarkersAroundPayload :=
  ⟨fun a c k p => ⟨by simp [buildFrame_eq, MARK], buildFrame_length a c p k, buildFrame_isFrame a c p k⟩,
    fun S F data => ⟨_, assemble_eq_buildFrame S F data⟩⟩

end Sys2Proof.Machine
end

section
/-! SUPPORT. Which rule the dispatcher selects, and what it reads of a request (spec/43_dispatch.md R160). -/

namespace Sys2Proof.Machine

open Sys2Proof

/-! ### The case table: a constant selects its rule because it differs from those compared before it. -/

theorem dispatch_eq_snq (S : DeviceState) {F : List Byte} (h : reqCop F = COP_SN) : dispatch S F = snq S F :=
  if_pos h

theorem dispatch_eq_wnet (S : DeviceState) {F : List Byte} (h : reqCop F = COP_NET) : dispatch S F = wnet S F := by
  simp [dispatch, h, COP_SN, COP_NET]

theorem dispatch_eq_wgrs (S : DeviceState) {F : List Byte} (h : reqCop F = COP_GROSS) : dispatch S F = wgrs S F := by
  simp [dispatch, h, COP_SN, COP_NET, COP_GROSS]

theorem dispatch_eq_stq (S : DeviceState) {F : List Byte} (h : reqCop F = COP_STATUS) : dispatch S F = stq S F := by
  simp [dispatch, h, COP_SN, COP_NET, COP_GROSS, COP_STATUS]

theorem dispatch_eq_cntq (S : DeviceState) {F : List Byte} (h : reqCop F = COP_COUNTER) :
    dispatch S F = cntq S F := by
  simp [dispatch, h, COP_SN, COP_NET, COP_GROSS, COP_STATUS, COP_COUNTER]

theorem dispatch_eq_noResponse (S : DeviceState) {F : List Byte}
    (h : reqCop F ∉ [COP_SN, COP_NET, COP_GROSS, COP_STATUS, COP_COUNTER]) : dispatch S F = .noResponse := by
  simp only [List.mem_cons, List.not_mem_nil, or_false, not_or] at h
  obtain ⟨hsn, hnet, hgross, hstatus, hcounter⟩ := h
  simp only [dispatch, nop, if_neg hsn, if_neg hnet, if_neg hgross, if_neg hstatus, if_neg hcounter]

/-! ### What a rule reads of the frame -/

theorem byteAt_congr {s t : List Byte} {i : Nat} (h : s[i]? = t[i]?) : byteAt s i = byteAt t i := by
  simp [byteAt, h]

section
variable (S : DeviceState) {F G : List Byte} (hcop : reqCop F = reqCop G)
include hcop

/-- The response builder echoes the command byte and reads nothing else of the request (R161). -/
theorem assemble_congr (data : List Byte) : assemble S F data = assemble S G data := by
  simp only [assemble, responseBody, hcop]

theorem snq_congr : snq S F = snq S G := assemble_congr S hcop _

theorem stq_congr : stq S F = stq S G := assemble_congr S hcop _

/-- The budget test reads the snapshot only; the frame gives the echoed byte of either answer (R164, R166, R167). -/
theorem weightReply_congr (net : Bool) : weightReply net S F = weightReply net S G := by
  simp only [weightReply, assemble_congr S hcop, hcop]

/-- The counter query also reads the index byte, to select the counter and to echo it (R169 to R171). -/
theorem cntq_congr (hnw : reqNw F = reqNw G) : cntq S F = cntq S G := by
  simp only [cntq, assemble_congr S hcop, hcop, hnw]

/-- The index byte is read under 0xC8 only (R160). -/
theorem dispatch_congr (hnw : reqCop F = COP_COUNTER → reqNw F = reqNw G) : dispatch S F = dispatch S G := by
  by_cases hcounter : reqCop F = COP_COUNTER
  · rw [dispatch_eq_cntq S hcounter, dispatch_eq_cntq S (hcop ▸ hcounter), cntq_congr S hcop (hnw hcounter)]
  · have hcounter' : reqCop G ≠ COP_COUNTER := hcop ▸ hcounter
    simp only [dispatch, hcop, if_neg hcounter', snq_congr S hcop, wnet, wgrs, weightReply_congr S hcop,
      stq_congr S hcop, nop]

end

/-- Settles O31: the case table, and the two bytes read as lookups, since a frame is long enough to have a third
byte. -/
theorem dispatchReadsTwoBytes : Obligations.DispatchReadsTwoBytes := by
  refine ⟨fun S F _ => ⟨dispatch_eq_snq S, dispatch_eq_wnet S, dispatch_eq_wgrs S, dispatch_eq_stq S,
    dispatch_eq_cntq S, dispatch_eq_noResponse S⟩, fun S F G hF _ hcop hnw => ?_⟩
  obtain ⟨hlen, -⟩ := (isFrame_iff_byteAt F).mp hF
  refine dispatch_congr S (byteAt_congr hcop) fun hcounter => byteAt_congr (hnw ?_)
  exact (byteAt_eq_iff (by omega) COP_COUNTER).mp hcounter

end Sys2Proof.Machine
end

section
/-! SUPPORT. The session phase, and the steps that move it (spec/44_session.md R194). -/

namespace Sys2Proof.Machine

open Sys2Proof

/-! ### The phase as a function of the two session bits -/

theorem State.phase_eq_closed_iff (s : State) : s.phase = .closed ↔ s.isOpen = false := by
  cases ho : s.isOpen <;> cases hh : s.hs <;> simp [State.phase, ho, hh]

theorem State.phase_eq_awaitingHandshake_iff (s : State) :
    s.phase = .awaitingHandshake ↔ s.isOpen = true ∧ s.hs = false := by
  cases ho : s.isOpen <;> cases hh : s.hs <;> simp [State.phase, ho, hh]

theorem State.phase_eq_handshakeComplete_iff (s : State) :
    s.phase = .handshakeComplete ↔ s.isOpen = true ∧ s.hs = true := by
  cases ho : s.isOpen <;> cases hh : s.hs <;> simp [State.phase, ho, hh]

theorem State.phase_congr {s t : State} (ho : t.isOpen = s.isOpen) (hh : t.hs = s.hs) : t.phase = s.phase := by
  simp only [State.phase, ho, hh]

@[simp] theorem State.openSession_phase (s : State) : s.openSession.phase = .awaitingHandshake := rfl

@[simp] theorem State.closeSession_phase (s : State) : s.closeSession.phase = .closed := rfl

/-! ### The steps that move the phase -/

theorem step_start_of_closed {s : State} {cfg : TransportConfig} {rest : List Input}
    (hin : s.inputs = .start cfg :: rest) (ho : s.isOpen = false) :
    step s = .next (s.setInputs rest).openSession := by
  simp [step_cons hin, perform, hostStart, ho]

theorem step_stop {s : State} {rest : List Input} (hin : s.inputs = .stop :: rest) :
    step s = .next (s.setInputs rest).closeSession := step_cons hin

/-- A byte that completes a frame while the link is open runs the frame in the same step, from an empty buffer
(R195). -/
theorem step_rx_of_isFrame {s : State} {x : Byte} {rest : List Input} (hin : s.inputs = .rx x :: rest)
    (ho : s.isOpen = true) (hF : isFrame (s.rxbuf ++ [x]) = true) :
    ∃ i, step s = .next (((s.setInputs rest).setRxbuf []).dispatchStep (Instr.command i) (encode i)) := by
  obtain ⟨a, c, f, t, hreq⟩ := isFrame_exists_request hF
  refine ⟨instrOfFields a c f t, ?_⟩
  have hd : rxDetect Config.rxBufMax s.rxbuf x = ([], some (requestFrame a c f t)) := hreq ▸ rxDetect_of_isFrame hF
  simp [step_cons hin, perform, rxByte, ho, hd, runFrame_requestFrame, exec_eq_dispatchStep]

/-- What a step does to the phase: START, STOP and the completing byte are the cases of `StepShape` that write a
session bit. -/
theorem step_phase {s t : State} (h : step s = .next t) :
    t.phase = s.phase ∨
    (s.phase = .closed ∧ t.phase = .awaitingHandshake ∧ ∃ cfg rest, s.inputs = .start cfg :: rest) ∨
    (s.phase = .awaitingHandshake ∧ t.phase = .handshakeComplete ∧
      ∃ x rest, s.inputs = .rx x :: rest ∧ isFrame (s.rxbuf ++ [x]) = true) ∨
    (s.phase ≠ .closed ∧ t.phase = .closed ∧ ∃ rest, s.inputs = .stop :: rest) := by
  cases step_shape h with
  | start cfg rest hin ho =>
    exact .inr (.inl ⟨s.phase_eq_closed_iff.mpr ho, State.openSession_phase _, cfg, rest, hin⟩)
  | stop rest hin =>
    by_cases hc : s.phase = .closed
    · exact .inl hc.symm
    · exact .inr (.inr (.inr ⟨hc, State.closeSession_phase _, rest, hin⟩))
  | command x rest i hin ho hF hd =>
    cases hh : s.hs with
    | true => exact .inl (State.phase_congr (by simp) (by simp [hh]))
    | false =>
      refine .inr (.inr (.inl ⟨s.phase_eq_awaitingHandshake_iff.mpr ⟨ho, hh⟩, ?_, x, rest, hin, hF⟩))
      exact (State.phase_eq_handshakeComplete_iff _).mpr (by simp [ho])
  | idle | update | lost | buffered | timeout | noTimeout | openFault | readFault | noReadFault | armWriteFault =>
    exact .inl (State.phase_congr (by simp) (by simp))

/-- Settles O48: every step by its shape, and each transition by the equation of its step. -/
theorem sessionPhaseTransitions : Obligations.SessionPhaseTransitions := by
  refine ⟨fun s => ⟨s.phase_eq_closed_iff, s.phase_eq_awaitingHandshake_iff, s.phase_eq_handshakeComplete_iff⟩,
    fun s t => step_phase, fun s cfg rest hc hin => ?start, fun s x rest ha hin hF => ?frame,
    fun s rest hin => ⟨_, step_stop hin, State.closeSession_phase _⟩⟩
  case start => exact ⟨_, step_start_of_closed hin (s.phase_eq_closed_iff.mp hc), State.openSession_phase _⟩
  case frame =>
    obtain ⟨ho, -⟩ := s.phase_eq_awaitingHandshake_iff.mp ha
    obtain ⟨i, hstep⟩ := step_rx_of_isFrame hin ho hF
    exact ⟨_, hstep, (State.phase_eq_handshakeComplete_iff _).mpr (by simp [ho])⟩

end Sys2Proof.Machine
end

section
/-! SUPPORT. The steps that clear a session bit (spec/70_reset_and_hazards.md R241). -/

namespace Sys2Proof.Machine

open Sys2Proof

/-- A dispatch step only sets `hs`, and of the other steps START alone writes it. -/
theorem step_clears_hs_only_by_start {s t : State} (h : step s = .next t) (hs : s.hs = true) (ht : t.hs = false) :
    s.isOpen = false ∧ ∃ cfg rest, s.inputs = .start cfg :: rest := by
  cases step_shape h with
  | start cfg rest hin ho => exact ⟨ho, cfg, rest, hin⟩
  | command => simp at ht
  | idle | stop | update | lost | buffered | timeout | noTimeout | openFault | readFault | noReadFault
    | armWriteFault => simp [hs] at ht

/-- Of the phase's transitions (R194) only STOP's ends in the closed phase. -/
theorem step_closes_only_by_stop {s t : State} (h : step s = .next t) (ho : s.isOpen = true)
    (ht : t.isOpen = false) : ∃ rest, s.inputs = .stop :: rest := by
  have hopen : s.phase ≠ .closed := by simp [s.phase_eq_closed_iff, ho]
  have hclosed : t.phase = .closed := t.phase_eq_closed_iff.mpr ht
  obtain hsame | ⟨hwas, -⟩ | ⟨-, hdone, -⟩ | ⟨-, -, hstop⟩ := step_phase h
  · exact absurd (hsame ▸ hclosed) hopen
  · exact absurd hwas hopen
  · simp [hclosed] at hdone
  · exact hstop

/-- Settles O45: the two equations of START and STOP, and the inversion of a step for what else could clear a bit. -/
theorem sessionResetIsStopThenStart : Obligations.SessionResetIsStopThenStart :=
  ⟨fun _ _ _ => step_start_of_closed, fun _ _ => step_stop, fun _ _ => step_clears_hs_only_by_start,
    fun _ _ => step_closes_only_by_stop⟩

end Sys2Proof.Machine
end

section
/-! SUPPORT. The receive buffer's invariant under a detector step (spec/10_state.md R27 and R42, spec/42_frame.md R142
and R143). -/

namespace Sys2Proof

/-! ### A detector step by its guards -/

theorem rxDetect_hunt (cap : BufferCapacity) {x : Byte} (hx : x ≠ MARK) : rxDetect cap [] x = ([], none) := by
  simp [rxDetect, bne_iff_ne.mpr hx]

section
variable {cap : BufferCapacity} {buf : List Byte} {x : Byte} (hstart : buf = [] → x = MARK)
  (hopen : closes (buf ++ [x]) = false)
include hstart hopen

theorem rxDetect_of_open :
    rxDetect cap buf x = bif cap.reached (buf.length + 1) then ([], none) else (buf ++ [x], none) := by
  have hhunt : (buf.isEmpty && x != MARK) = false := by simpa using hstart
  simp [rxDetect, hhunt, hopen]

theorem rxDetect_overflow (hfull : cap.max = some (buf.length + 1)) : rxDetect cap buf x = ([], none) := by
  rw [rxDetect_of_open hstart hopen, (reached_iff _ _).mpr hfull, cond_true]

theorem rxDetect_keep (hroom : cap.max ≠ some (buf.length + 1)) : rxDetect cap buf x = (buf ++ [x], none) := by
  rw [rxDetect_of_open hstart hopen, Bool.eq_false_iff.mpr fun h => hroom ((reached_iff _ _).mp h), cond_false]

end

/-- A step that completes nothing empties the buffer or keeps the byte. -/
theorem rxDetect_none {cap : BufferCapacity} {buf : List Byte} {x : Byte} (h : (rxDetect cap buf x).2 = none) :
    (rxDetect cap buf x).1 = [] ∨ (rxDetect cap buf x).1 = buf ++ [x] := by
  rcases rxDetect_cases cap buf x with ⟨-, -, e⟩ | ⟨-, -, e⟩ | ⟨-, -, -, e⟩ | ⟨-, -, -, e⟩ <;> rw [e] at h ⊢
  · exact .inl rfl
  · cases h
  · exact .inl rfl
  · exact .inr rfl

/-! ### The frame predicate on a buffer that starts with the marker -/

@[simp] theorem closes_nil : closes [] = false := rfl

/-- A sequence that starts with the marker is a frame as soon as it closes (R140, R142). -/
theorem isFrame_eq_closes {s : List Byte} (h : s = [] ∨ byteAt s 0 = MARK) : isFrame s = closes s := by
  rcases h with rfl | h
  · rfl
  · simp [isFrame, h]

/-- In a buffer that starts with the marker, what the next byte closes is a frame: one byte alone closes nothing. -/
theorem isFrame_concat_eq_closes {buf : List Byte} (h : buf = [] ∨ byteAt buf 0 = MARK) (x : Byte) :
    isFrame (buf ++ [x]) = closes (buf ++ [x]) := by
  cases buf with
  | nil => simp [isFrame, closes, MIN_FRAME]
  | cons a buf => exact isFrame_eq_closes (.inr (by simpa using h))

theorem BufferCapacity.max_pos {cap : BufferCapacity} {m : Nat} (h : cap.max = some m) : 0 < m := by
  cases cap with
  | unbounded => cases h
  | bounded k => cases h; omega

end Sys2Proof

namespace Sys2Proof.Machine

open Sys2Proof

/-! ### The invariant of the buffer -/

theorem RxbufOk.isFrame_concat {cap : BufferCapacity} {buf : List Byte} (h : RxbufOk cap buf) (x : Byte) :
    isFrame (buf ++ [x]) = closes (buf ++ [x]) := isFrame_concat_eq_closes h.start x

theorem RxbufOk.nil (cap : BufferCapacity) : RxbufOk cap [] where
  start := .inl rfl
  noFrame := fun k _ => by simp [isFrame]
  room := fun _ hm => BufferCapacity.max_pos hm

/-- No initial part of the buffer with the next byte is a frame, except the whole. -/
theorem RxbufOk.isFrame_take_concat {cap : BufferCapacity} {buf : List Byte} (h : RxbufOk cap buf) (x : Byte) {k : Nat}
    (hk : k ≤ buf.length) : isFrame ((buf ++ [x]).take k) = false := by
  rw [List.take_append_of_le_length hk]
  exact h.noFrame k hk

/-- A byte that the detector keeps keeps the invariant. -/
theorem RxbufOk.concat {cap : BufferCapacity} {buf : List Byte} {x : Byte} (h : RxbufOk cap buf)
    (hstart : buf = [] → x = MARK) (hopen : closes (buf ++ [x]) = false) (hroom : cap.max ≠ some (buf.length + 1)) :
    RxbufOk cap (buf ++ [x]) where
  start := by
    cases buf with
    | nil => exact .inr (hstart rfl)
    | cons a buf => exact .inr (by simpa using h.start)
  noFrame := fun k hk => by
    rw [List.length_append, List.length_singleton] at hk
    rcases Nat.lt_or_eq_of_le hk with hlt | rfl
    · exact h.isFrame_take_concat x (Nat.le_of_lt_succ hlt)
    · rw [List.take_of_length_le (by simp), h.isFrame_concat, hopen]
  room := fun m hm => by
    have hlt := h.room m hm
    have hne : m ≠ buf.length + 1 := fun he => hroom (he ▸ hm)
    rw [List.length_append, List.length_singleton]
    omega

theorem RxbufOk.detect {cap : BufferCapacity} {buf : List Byte} (h : RxbufOk cap buf) (x : Byte) :
    RxbufOk cap (rxDetect cap buf x).1 := by
  rcases rxDetect_cases cap buf x with ⟨-, -, e⟩ | ⟨-, -, e⟩ | ⟨-, -, -, e⟩ | ⟨hstart, hopen, hroom, e⟩ <;> rw [e]
  · exact RxbufOk.nil cap
  · exact RxbufOk.nil cap
  · exact RxbufOk.nil cap
  · exact h.concat hstart hopen hroom

/-- A completed frame is the shortest at its place (R145) and fits the buffer (R143). -/
theorem RxbufOk.completed {cap : BufferCapacity} {buf F : List Byte} {x : Byte} (h : RxbufOk cap buf)
    (hF : (rxDetect cap buf x).2 = some F) :
    isFrame F = true ∧ (∀ k, k < F.length → isFrame (F.take k) = false) ∧ ∀ m, cap.max = some m → F.length ≤ m := by
  obtain ⟨rfl, hclosed, -⟩ := rxDetect_some hF
  rw [List.length_append, List.length_singleton]
  exact ⟨(h.isFrame_concat x).trans hclosed, fun k hk => h.isFrame_take_concat x (Nat.le_of_lt_succ hk), h.room⟩

/-- Settles O14: each guard selects its branch; under the invariant a sequence closes exactly when it is a frame. -/
theorem detectorStepByCases : Obligations.DetectorStepByCases := by
  intro cap buf x h
  refine ⟨?hunt, rxDetect_of_isFrame, ?overflow, ?keep⟩
  case hunt =>
    rintro ⟨rfl, hx⟩
    exact rxDetect_hunt cap hx
  case overflow =>
    rintro ⟨hstart, hF, hfull⟩
    exact rxDetect_overflow (imp_iff_not_or.mpr hstart) (h.isFrame_concat x ▸ hF) hfull
  case keep =>
    rintro ⟨hstart, hF, hroom⟩
    exact rxDetect_keep (imp_iff_not_or.mpr hstart) (h.isFrame_concat x ▸ hF) hroom

/-- Settles O15: a step empties the buffer or keeps a byte that closes nothing and leaves room. -/
theorem detectorKeepsBufferInvariant : Obligations.DetectorKeepsBufferInvariant := by
  intro cap buf x h
  refine ⟨h.detect x, fun F hF => ?_⟩
  obtain ⟨hframe, hshort, -⟩ := h.completed hF
  obtain ⟨hwhole, -, hempty⟩ := rxDetect_some hF
  exact ⟨hwhole, hempty, hframe, hshort⟩

end Sys2Proof.Machine
end

section
/-! SUPPORT. `tryExtractFrame` as the detector folded to its first frame, as a cut of the stream, and as the pseudocode
for an unbounded buffer (spec/42_frame.md R144 and R145). -/

namespace Sys2Proof

/-! ### The fold and the detector (R144) -/

theorem detectAll_cons (cap : BufferCapacity) (buf : List Byte) (x : Byte) (xs : List Byte) :
    detectAll cap buf (x :: xs) =
      ((rxDetect cap buf x).2.toList ++ (detectAll cap (rxDetect cap buf x).1 xs).1,
        (detectAll cap (rxDetect cap buf x).1 xs).2) := rfl

theorem detectAll_cons_none {cap : BufferCapacity} {buf : List Byte} {x : Byte} (xs : List Byte)
    (h : (rxDetect cap buf x).2 = none) :
    detectAll cap buf (x :: xs) = detectAll cap (rxDetect cap buf x).1 xs := by
  rw [detectAll_cons, h]
  rfl

theorem detectAll_cons_some {cap : BufferCapacity} {buf F : List Byte} {x : Byte} (xs : List Byte)
    (h : (rxDetect cap buf x).2 = some F) :
    detectAll cap buf (x :: xs) = (F :: (detectAll cap [] xs).1, (detectAll cap [] xs).2) := by
  obtain ⟨-, -, hempty⟩ := rxDetect_some h
  rw [detectAll_cons, h, hempty]
  rfl

theorem detectAll_of_extractFrom_incomplete {cap : BufferCapacity} {buf xs pending : List Byte}
    (h : extractFrom cap buf xs = .incomplete pending) : detectAll cap buf xs = ([], pending) := by
  induction xs generalizing buf with
  | nil => cases h; rfl
  | cons x xs ih =>
    cases hd : (rxDetect cap buf x).2 with
    | none => rw [detectAll_cons_none xs hd, ih ((extractFrom_cons_none xs hd).symm.trans h)]
    | some F => rw [extractFrom_cons_some xs hd] at h; cases h

theorem detectAll_of_extractFrom_frame {cap : BufferCapacity} {buf xs F rest : List Byte}
    (h : extractFrom cap buf xs = .frame F rest) :
    detectAll cap buf xs = (F :: (detectAll cap [] rest).1, (detectAll cap [] rest).2) := by
  induction xs generalizing buf with
  | nil => cases h
  | cons x xs ih =>
    cases hd : (rxDetect cap buf x).2 with
    | none => rw [detectAll_cons_none xs hd, ih ((extractFrom_cons_none xs hd).symm.trans h)]
    | some G =>
      rw [extractFrom_cons_some xs hd] at h
      cases h
      exact detectAll_cons_some rest hd

/-! ### The unbounded fold (R144, D5) -/

/-- Without a capacity a buffer that is not empty keeps every byte until it closes. -/
theorem rxDetect_unbounded {buf : List Byte} (hbuf : buf ≠ []) (x : Byte) :
    rxDetect .unbounded buf x = bif closes (buf ++ [x]) then ([], some (buf ++ [x])) else (buf ++ [x], none) := by
  rcases rxDetect_cases .unbounded buf x with ⟨rfl, -⟩ | ⟨-, hc, e⟩ | ⟨-, -, hfull, -⟩ | ⟨-, hc, -, e⟩
  · exact absurd rfl hbuf
  · rw [e, hc, cond_true]
  · cases hfull
  · rw [e, hc, cond_false]

theorem rxDetect_unbounded_mark : rxDetect .unbounded [] MARK = ([MARK], none) := rfl

/-- Once the buffer is not empty, the fold looks for the first byte that closes it. -/
theorem extractFrom_unbounded {buf : List Byte} (hbuf : buf ≠ []) (xs : List Byte) :
    extractFrom .unbounded buf xs =
      ((List.range xs.length).find? fun j => closes (buf ++ xs.take (j + 1))).elim (.incomplete (buf ++ xs))
        fun j => .frame (buf ++ xs.take (j + 1)) (xs.drop (j + 1)) := by
  induction xs generalizing buf with
  | nil => simp
  | cons x xs ih =>
    have hd := rxDetect_unbounded hbuf x
    rw [List.length_cons, List.range_succ_eq_map, List.find?_cons]
    cases hc : closes (buf ++ [x]) with
    | true =>
      rw [hc, cond_true] at hd
      rw [extractFrom_cons_some xs (congrArg Prod.snd hd)]
      simp [hc]
    | false =>
      rw [hc, cond_false] at hd
      rw [extractFrom_cons_none xs (congrArg Prod.snd hd), hd, ih (by simp)]
      simp [List.find?_map, Function.comp_def, Option.elim_map, hc]

/-- The hunt for the start marker drops every other byte. -/
theorem extractFrom_hunt (cap : BufferCapacity) {dropped : List Byte} (h : MARK ∉ dropped) (xs : List Byte) :
    extractFrom cap [] (dropped ++ xs) = extractFrom cap [] xs := by
  induction dropped with
  | nil => rfl
  | cons x dropped ih =>
    rw [List.mem_cons, not_or] at h
    obtain ⟨hx, hrest⟩ := h
    have hd := rxDetect_hunt cap (Ne.symm hx)
    rw [List.cons_append, extractFrom_cons_none _ (congrArg Prod.snd hd), hd, ih hrest]

/-- Once the buffer is not empty, it stays so or a frame is completed. -/
theorem detectAll_unbounded_ne_nil {buf : List Byte} (hbuf : buf ≠ []) (xs : List Byte) :
    detectAll .unbounded buf xs ≠ ([], []) := by
  induction xs generalizing buf with
  | nil => simpa [detectAll] using hbuf
  | cons x xs ih =>
    have hd := rxDetect_unbounded hbuf x
    cases hc : closes (buf ++ [x]) with
    | true => simp [detectAll_cons, hd, hc]
    | false =>
      rw [hc, cond_false] at hd
      rw [detectAll_cons_none xs (congrArg Prod.snd hd), hd]
      exact ih (by simp)

theorem not_mem_mark_of_detectAll_unbounded {dropped : List Byte} (h : detectAll .unbounded [] dropped = ([], [])) :
    MARK ∉ dropped := by
  induction dropped with
  | nil => exact List.not_mem_nil
  | cons x xs ih =>
    by_cases hx : x = MARK
    · subst hx
      rw [detectAll_cons_none xs rfl, rxDetect_unbounded_mark] at h
      exact absurd h (detectAll_unbounded_ne_nil (by simp) xs)
    · have hd := rxDetect_hunt .unbounded hx
      rw [detectAll_cons_none xs (congrArg Prod.snd hd), hd] at h
      simpa [Ne.symm hx] using ih h

/-! ### The pseudocode of R144 -/

theorem find?_range_add {p : Nat → Bool} {n k : Nat} (h : ∀ e < n, p e = false) :
    (List.range (n + k)).find? p = ((List.range k).find? fun j => p (n + j)).map (n + ·) := by
  have hbefore : (List.range n).find? p = none :=
    List.find?_eq_none.mpr fun e he => by simp [h e (List.mem_range.mp he)]
  rw [List.range_add, List.find?_append, hbefore, Option.none_or, List.find?_map]
  rfl

theorem findIdx_mark_append {dropped : List Byte} (h : MARK ∉ dropped) (xs : List Byte) :
    (dropped ++ MARK :: xs).findIdx (fun b => b == MARK) = dropped.length := by
  have hnone : dropped.findIdx (fun b => b == MARK) = dropped.length :=
    List.findIdx_eq_length.mpr fun b hb => beq_eq_false_iff_ne.mpr fun he => h (he ▸ hb)
  simp [List.findIdx_append, hnone, List.findIdx_cons]

/-- The index test of the pseudocode, `j` bytes after the start marker, is the detector's closing test. -/
theorem cut_test_eq_closes (dropped : List Byte) {xs : List Byte} {j : Nat} (hj : j < xs.length) :
    (decide (dropped.length + 5 ≤ dropped.length + 1 + j) &&
        byteAt (dropped ++ MARK :: xs) (dropped.length + 1 + j - 1) == MARK &&
        byteAt (dropped ++ MARK :: xs) (dropped.length + 1 + j) == MARK) =
      closes ([MARK] ++ xs.take (j + 1)) := by
  have hlen : ([MARK] ++ xs.take (j + 1)).length = j + 2 := by simp; omega
  have hat (i : Nat) (hi : i ≤ j + 1) :
      byteAt (dropped ++ MARK :: xs) (dropped.length + i) = byteAt ([MARK] ++ xs.take (j + 1)) i := by
    rw [byteAt_append_right _ _ _ (Nat.le_add_right _ _), Nat.add_sub_cancel_left]
    cases i with
    | zero => rfl
    | succ i => simp [byteAt, List.getElem?_take_of_lt (show i < j + 1 by omega)]
  rw [closes, hlen, show dropped.length + 1 + j - 1 = dropped.length + j by omega,
    show dropped.length + 1 + j = dropped.length + (j + 1) by omega, hat j (by omega), hat (j + 1) le_rfl]
  have hsize : decide (dropped.length + 5 ≤ dropped.length + (j + 1)) = decide (MIN_FRAME ≤ j + 2) := by
    rw [MIN_FRAME]
    exact decide_eq_decide.mpr (by omega)
  rw [hsize, show j + 2 - 1 = j + 1 by omega, show j + 2 - 2 = j by omega, Bool.and_right_comm]

theorem cutFirstFrame_append_mark {dropped : List Byte} (h : MARK ∉ dropped) (xs : List Byte) :
    cutFirstFrame (dropped ++ MARK :: xs) =
      ((List.range xs.length).find? fun j => closes ([MARK] ++ xs.take (j + 1))).elim (.incomplete ([MARK] ++ xs))
        fun j => .frame ([MARK] ++ xs.take (j + 1)) (xs.drop (j + 1)) := by
  have hlen : (dropped ++ MARK :: xs).length = dropped.length + 1 + xs.length := by simp; omega
  have hne : dropped.length ≠ dropped.length + 1 + xs.length := by omega
  simp only [cutFirstFrame, findIdx_mark_append h, hlen, if_neg hne]
  rw [find?_range_add fun e he => ?_, List.find?_congr fun j hj => cut_test_eq_closes dropped (List.mem_range.mp hj)]
  swap
  · simp [show ¬ dropped.length + 5 ≤ e by omega]
  cases (List.range xs.length).find? fun j => closes ([MARK] ++ xs.take (j + 1)) with
  | none => simp
  | some j =>
    have hdrop : dropped.length + 1 + j + 1 - dropped.length = j + 2 := by omega
    have hgone : dropped.length ≤ dropped.length + 1 + j + 1 := by omega
    simp [List.take_append, List.drop_append, hdrop, hgone, List.drop_eq_nil_of_le,
      List.take_of_length_le]

theorem cutFirstFrame_of_not_mem {buffer : List Byte} (h : MARK ∉ buffer) : cutFirstFrame buffer = .incomplete [] := by
  have hnone : buffer.findIdx (fun b => b == MARK) = buffer.length :=
    List.findIdx_eq_length.mpr fun b hb => beq_eq_false_iff_ne.mpr fun he => h (he ▸ hb)
  simp [cutFirstFrame, hnone]

theorem tryExtractFrame_unbounded (buffer : List Byte) : tryExtractFrame .unbounded buffer = cutFirstFrame buffer := by
  by_cases hmark : MARK ∈ buffer
  · obtain ⟨dropped, xs, rfl, hdropped⟩ := List.eq_append_cons_of_mem hmark
    rw [tryExtractFrame, extractFrom_hunt _ hdropped, extractFrom_cons_none xs rfl, rxDetect_unbounded_mark,
      extractFrom_unbounded (by simp), cutFirstFrame_append_mark hdropped]
  · rw [tryExtractFrame, ← List.append_nil buffer, extractFrom_hunt _ hmark, List.append_nil,
      cutFirstFrame_of_not_mem hmark, extractFrom_nil]

end Sys2Proof

namespace Sys2Proof.Machine

open Sys2Proof

/-- Settles O16: both folds make the same detector steps; without a capacity the first closing byte is the least index
the pseudocode looks for. -/
theorem extractIsFoldedDetector : Obligations.ExtractIsFoldedDetector := by
  refine ⟨fun cap buffer => ?_, tryExtractFrame_unbounded⟩
  cases h : tryExtractFrame cap buffer with
  | incomplete pending => exact detectAll_of_extractFrom_incomplete h
  | frame F rest => exact detectAll_of_extractFrom_frame h

/-! ### The place of the frame in the stream (R145) -/

/-- The frame begins in the buffer, or the detector drops the buffer and more bytes before it. -/
theorem extractFrom_frame_place {cap : BufferCapacity} {buf xs F rest : List Byte}
    (h : extractFrom cap buf xs = .frame F rest) :
    (∃ ys, F = buf ++ ys ∧ xs = ys ++ rest) ∨
    ∃ dropped, xs = dropped ++ F ++ rest ∧ detectAll cap buf dropped = ([], []) := by
  induction xs generalizing buf with
  | nil => cases h
  | cons x xs ih =>
    cases hd : (rxDetect cap buf x).2 with
    | some G =>
      rw [extractFrom_cons_some xs hd] at h
      cases h
      exact .inl ⟨[x], (rxDetect_some hd).1, rfl⟩
    | none =>
      rw [extractFrom_cons_none xs hd] at h
      obtain ⟨ys, hF, rfl⟩ | ⟨dropped, rfl, hdet⟩ := ih h
      · rcases rxDetect_none hd with hempty | hkept
        · refine .inr ⟨[x], by simp [hF, hempty], ?_⟩
          rw [detectAll_cons_none [] hd, hempty]
          rfl
        · exact .inl ⟨x :: ys, by simp [hF, hkept], rfl⟩
      · exact .inr ⟨x :: dropped, rfl, by rw [detectAll_cons_none _ hd, hdet]⟩

theorem extractFrom_frame_shortest {cap : BufferCapacity} {buf xs F rest : List Byte} (hok : RxbufOk cap buf)
    (h : extractFrom cap buf xs = .frame F rest) :
    isFrame F = true ∧ (∀ k, k < F.length → isFrame (F.take k) = false) ∧ ∀ m, cap.max = some m → F.length ≤ m := by
  induction xs generalizing buf with
  | nil => cases h
  | cons x xs ih =>
    cases hd : (rxDetect cap buf x).2 with
    | none => exact ih (hok.detect x) ((extractFrom_cons_none xs hd).symm.trans h)
    | some G =>
      rw [extractFrom_cons_some xs hd] at h
      cases h
      exact hok.completed hd

theorem tryExtractFrame_place {cap : BufferCapacity} {buffer F rest : List Byte}
    (h : tryExtractFrame cap buffer = .frame F rest) :
    ∃ dropped, buffer = dropped ++ F ++ rest ∧ detectAll cap [] dropped = ([], []) := by
  obtain ⟨ys, rfl, rfl⟩ | hplace := extractFrom_frame_place h
  · exact ⟨[], rfl, rfl⟩
  · exact hplace

/-- Settles O17: the frame is a completion from a buffer that meets the invariant; the bytes before it are those of
detector steps that completed and kept nothing. -/
theorem extractCutsFirstOccurrence : Obligations.ExtractCutsFirstOccurrence := by
  intro cap buffer F rest h
  obtain ⟨hF, hshort, hfits⟩ := extractFrom_frame_shortest (RxbufOk.nil cap) h
  obtain ⟨dropped, hbuffer, hdropped⟩ := tryExtractFrame_place h
  refine ⟨hF, hshort, hfits, dropped, hbuffer, hdropped, ?_⟩
  rintro rfl
  exact not_mem_mark_of_detectAll_unbounded hdropped

end Sys2Proof.Machine
end

section
/-! SUPPORT. Decoding and encoding as inverse to each other, on frames and on streams (spec/30_encoding.md sections 2
and 6, spec/42_frame.md section 3). -/

namespace Sys2Proof

/-! ### The fields of an instruction -/

theorem rowOk_cntqOther_iff (a nw : Byte) (t : List Byte) :
    (Instr.cntqOther a nw t).rowOk = true ↔ nw ≠ NW_CNT4 ∧ nw ≠ NW_CNT8 := by
  simp [Instr.rowOk, isPopulated]

theorem rowOk_nop_iff (a c f : Byte) (t : List Byte) :
    (Instr.nop a c f t).rowOk = true ↔
      c ≠ COP_SN ∧ c ≠ COP_NET ∧ c ≠ COP_GROSS ∧ c ≠ COP_STATUS ∧ c ≠ COP_COUNTER := by
  simp [Instr.rowOk, isCommand, and_assoc]

theorem instrOfFields_rowOk (a c f : Byte) (t : List Byte) : (instrOfFields a c f t).rowOk = true := by
  unfold instrOfFields
  split_ifs with hsn hnet hgross hstatus hcounter h4 h8
  · rfl
  · rfl
  · rfl
  · rfl
  · rfl
  · rfl
  · exact (rowOk_cntqOther_iff a f t).mpr ⟨h4, h8⟩
  · exact (rowOk_nop_iff a c f t).mpr ⟨hsn, hnet, hgross, hstatus, hcounter⟩

/-- The constructor an instruction's own bytes select is its own (R79, R170, R172). -/
theorem exists_fields_of_rowOk {i : Instr} (h : i.rowOk = true) :
    ∃ a c f, encode i = requestFrame a c f i.tail ∧ instrOfFields a c f i.tail = i := by
  cases i with
  | snq a f t => exact ⟨a, _, f, rfl, rfl⟩
  | wnet a f t => exact ⟨a, _, f, rfl, rfl⟩
  | wgrs a f t => exact ⟨a, _, f, rfl, rfl⟩
  | stq a f t => exact ⟨a, _, f, rfl, rfl⟩
  | cntq4 a t => exact ⟨a, _, _, rfl, rfl⟩
  | cntq8 a t => exact ⟨a, _, _, rfl, rfl⟩
  | cntqOther a nw t =>
    refine ⟨a, _, nw, rfl, ?_⟩
    obtain ⟨h4, h8⟩ := (rowOk_cntqOther_iff a nw t).mp h
    exact (if_neg h4).trans (if_neg h8)
  | nop a c f t =>
    refine ⟨a, c, f, rfl, ?_⟩
    obtain ⟨hsn, hnet, hgross, hstatus, hcounter⟩ := (rowOk_nop_iff a c f t).mp h
    simp only [instrOfFields, if_neg hsn, if_neg hnet, if_neg hgross, if_neg hstatus, if_neg hcounter, Instr.tail]

theorem encode_isFrame (i : Instr) : isFrame (encode i) = true := by
  cases i <;> exact requestFrame_isFrame _ _ _ _

theorem decodeFrame_encode {i : Instr} (h : i.rowOk = true) : decodeFrame (encode i) = .ok i := by
  obtain ⟨a, c, f, he, hi⟩ := exists_fields_of_rowOk h
  rw [he, decodeFrame_requestFrame, hi]

theorem decodeFrame_ok {F : List Byte} {i : Instr} (h : decodeFrame F = .ok i) : encode i = F ∧ i.rowOk = true := by
  obtain ⟨a, c, f, t, rfl⟩ := isFrame_exists_request (decodeFrame_ok_isFrame h)
  rw [decodeFrame_requestFrame] at h
  cases h
  exact ⟨encode_instrOfFields a c f t, instrOfFields_rowOk a c f t⟩

theorem exists_decodeFrame_of_isFrame {F : List Byte} (h : isFrame F = true) : ∃ i, decodeFrame F = .ok i := by
  obtain ⟨a, c, f, t, rfl⟩ := isFrame_exists_request h
  exact ⟨_, decodeFrame_requestFrame a c f t⟩

/-! ### Frames the detector does not cut short (R145, R250) -/

theorem hasMarkPair_iff (s : List Byte) : hasMarkPair s = true ↔ [MARK, MARK] <:+: s := by
  match s with
  | [] => simp [hasMarkPair]
  | [a] => simp [hasMarkPair, List.infix_cons_iff]
  | a :: b :: rest =>
    rw [hasMarkPair, List.infix_cons_iff, Bool.or_eq_true, hasMarkPair_iff (b :: rest)]
    simp [List.cons_prefix_cons, @eq_comm _ MARK]

theorem requestFrame_eq_cons (a c f : Byte) (t : List Byte) :
    requestFrame a c f t = MARK :: a :: c :: f :: (t ++ [MARK] ++ [MARK]) := by simp [requestFrame]

/-- A proper initial part that is a frame ends in a pair of markers at positions 4 to `n-2`. -/
theorem isFrame_take_requestFrame {a c f : Byte} {t : List Byte} (h : hasMarkPair (t ++ [MARK]) = false) {k : Nat}
    (hk : k < (requestFrame a c f t).length) : isFrame ((requestFrame a c f t).take k) = false := by
  rw [Bool.eq_false_iff]
  intro hF
  have hlen := isFrame_length hF
  rw [List.length_take] at hlen
  obtain ⟨j, rfl⟩ : ∃ j, k = j + 4 := ⟨k - 4, by omega⟩
  obtain ⟨a', c', f', m, hcut⟩ := isFrame_exists_request hF
  rw [requestFrame_length] at hk
  simp only [requestFrame_eq_cons, List.take_succ_cons, List.cons.injEq] at hcut
  obtain ⟨-, -, -, -, hcut⟩ := hcut
  rw [List.take_append_of_le_length (by simp; omega)] at hcut
  have hpair : [MARK, MARK] <:+: (t ++ [MARK]).take j := ⟨m, [], by simp [hcut]⟩
  have hmark : hasMarkPair (t ++ [MARK]) = true := (hasMarkPair_iff _).mpr (hpair.trans (List.take_prefix _ _).isInfix)
  simp [h] at hmark

/-- A detector step inside a frame that is not cut short and fits the buffer keeps the byte. -/
theorem rxDetect_keep_of_isFrame {cap : BufferCapacity} {buf xs : List Byte} {x : Byte} (hxs : xs ≠ [])
    (hF : isFrame (buf ++ x :: xs) = true)
    (hshort : ∀ k < (buf ++ x :: xs).length, isFrame ((buf ++ x :: xs).take k) = false)
    (hfits : ∀ m, cap.max = some m → (buf ++ x :: xs).length ≤ m) : rxDetect cap buf x = (buf ++ [x], none) := by
  have hlen : buf.length + 1 < (buf ++ x :: xs).length := by
    simpa using List.length_pos_of_ne_nil hxs
  obtain ⟨-, hfirst, -⟩ := (Machine.isFrame_iff_byteAt _).mp hF
  have hstart : buf = [] → x = MARK := by
    rintro rfl
    exact hfirst
  have hmark : buf = [] ∨ byteAt buf 0 = MARK := by
    cases buf with
    | nil => exact .inl rfl
    | cons => exact .inr hfirst
  have hopen : closes (buf ++ [x]) = false := by
    rw [← isFrame_concat_eq_closes hmark x]
    simpa [List.take_append, List.take_of_length_le] using hshort (buf.length + 1) hlen
  exact rxDetect_keep hstart hopen fun hfull => absurd (hfits _ hfull) (Nat.not_le.mpr hlen)

/-- A frame that is not cut short and fits the buffer is the first frame of every stream that goes on with its bytes. -/
theorem extractFrom_append {cap : BufferCapacity} {buf xs : List Byte} (hxs : xs ≠ [])
    (hF : isFrame (buf ++ xs) = true) (hshort : ∀ k < (buf ++ xs).length, isFrame ((buf ++ xs).take k) = false)
    (hfits : ∀ m, cap.max = some m → (buf ++ xs).length ≤ m) (rest : List Byte) :
    extractFrom cap buf (xs ++ rest) = .frame (buf ++ xs) rest := by
  induction xs generalizing buf with
  | nil => exact absurd rfl hxs
  | cons x xs ih =>
    by_cases hlast : xs = []
    · subst hlast
      exact extractFrom_cons_some rest (congrArg Prod.snd (rxDetect_of_isFrame hF))
    · have hd := rxDetect_keep_of_isFrame hlast hF hshort hfits
      have hassoc : buf ++ x :: xs = buf ++ [x] ++ xs := by simp
      rw [hassoc] at hF hshort hfits ⊢
      rw [List.cons_append, extractFrom_cons_none _ (congrArg Prod.snd hd), hd]
      exact ih hlast hF hshort hfits

/-- The stream form of `isFrame_take_requestFrame`: a request without an early pair of markers is cut whole. -/
theorem tryExtractFrame_requestFrame_append {cap : BufferCapacity} {a c f : Byte} {t : List Byte}
    (huncut : hasMarkPair (t ++ [MARK]) = false)
    (hfits : ∀ m, cap.max = some m → (requestFrame a c f t).length ≤ m) (rest : List Byte) :
    tryExtractFrame cap (requestFrame a c f t ++ rest) = .frame (requestFrame a c f t) rest :=
  extractFrom_append (buf := []) (by simp) (requestFrame_isFrame a c f t)
    (fun _ hk => isFrame_take_requestFrame huncut hk) hfits rest

theorem tryExtractFrame_encode_append {cap : BufferCapacity} {i : Instr} (hwf : i.wellFormed = true)
    (hfits : Machine.fits cap i) (rest : List Byte) :
    tryExtractFrame cap (encode i ++ rest) = .frame (encode i) rest := by
  obtain ⟨hrow, huncut⟩ := Bool.and_eq_true_iff.mp hwf
  obtain ⟨a, c, f, he, -⟩ := exists_fields_of_rowOk hrow
  rw [Machine.fits, he] at hfits
  rw [he]
  exact tryExtractFrame_requestFrame_append (Bool.not_eq_true' _ ▸ huncut) hfits rest

/-! ### The decoder of a stream -/

theorem decode_eq_ok_iff {cap : BufferCapacity} {buffer rest : List Byte} {i : Instr} :
    decode cap buffer = .ok (i, rest) ↔
      ∃ F, tryExtractFrame cap buffer = .frame F rest ∧ decodeFrame F = .ok i := by
  cases hx : tryExtractFrame cap buffer with
  | incomplete pending => simp [decode, hx]
  | frame F rest' =>
    cases hd : decodeFrame F with
    | error r => simp [decode, hx, hd]
    | ok i' => simp [decode, hx, hd, and_comm, eq_comm]

end Sys2Proof

namespace Sys2Proof.Machine

open Sys2Proof

/-- Settles O18: a well-formed request that fits is cut whole and decodes to itself; what a stream decodes to is the
decoding of a frame that was cut from it, and no frame longer than the buffer is. -/
theorem decodeOfEncode : Obligations.DecodeOfEncode := by
  intro cap i hwf
  refine ⟨fun hfits rest => ?fits, fun hbig buffer rest hdec => ?tooBig⟩
  case fits =>
    obtain ⟨hrow, -⟩ := Bool.and_eq_true_iff.mp hwf
    exact decode_eq_ok_iff.mpr ⟨_, tryExtractFrame_encode_append hwf hfits rest, decodeFrame_encode hrow⟩
  case tooBig =>
    obtain ⟨F, hcut, hF⟩ := decode_eq_ok_iff.mp hdec
    obtain ⟨-, -, hlen⟩ := extractFrom_frame_shortest (RxbufOk.nil cap) hcut
    obtain ⟨rfl, -⟩ := decodeFrame_ok hF
    exact hbig hlen

/-- Settles O19: the decoder reads the fields of a request frame, and the encoder puts them back. -/
theorem encodeOfDecodeFrame : Obligations.EncodeOfDecodeFrame := by
  refine ⟨fun F i h => ?_, fun F => exists_decodeFrame_of_isFrame⟩
  obtain ⟨hencode, hrow⟩ := decodeFrame_ok h
  exact ⟨hencode, hrow, decodeFrame_ok_isFrame h⟩

/-- Settles O44: the stray marker and the request are together a request with address `FF`, whose tail begins with the
request's `F[3]`. -/
theorem strayMarkerShiftsRequest : Obligations.StrayMarkerShiftsRequest := by
  intro cap adr cop f3 tail huncut hfits
  have hshift : 0xFF#8 :: requestFrame adr cop f3 tail = requestFrame MARK adr cop (f3 :: tail) := rfl
  have hcut := tryExtractFrame_requestFrame_append (a := MARK) (c := adr) (f := cop) huncut
    (fun m hm => by simpa using hfits m hm) []
  rw [List.append_nil] at hcut
  refine ⟨?_, rfl, rfl⟩
  rw [hshift, detectAll_of_extractFrom_frame hcut]
  rfl

/-! ### The opcode table (R79) -/

theorem append_eq_append_iff {w v : Nat} {x x' : BitVec w} {y y' : BitVec v} :
    x ++ y = x' ++ y' ↔ x = x' ∧ y = y' := by
  constructor
  · intro h
    exact ⟨by simpa only [BitVec.extractLsb'_append_eq_left] using congrArg (BitVec.extractLsb' v w) h,
      by simpa only [BitVec.extractLsb'_append_eq_right] using congrArg (BitVec.extractLsb' 0 v) h⟩
  · rintro ⟨rfl, rfl⟩
    rfl

theorem and_ff (x : Byte) : x &&& 0xFF#8 = x := BitVec.and_allOnes

section
variable (a c f : Byte) {pattern : BitVec 32} {k n : Byte}

/-- The mask of a row that names the command byte only. -/
theorem matches_cop (h : pattern = MARK ++ 0#8 ++ k ++ 0#8) :
    ((MARK ++ a ++ c ++ f &&& 0xFF00FF00#32) == pattern) = (c == k) := by
  have hmask : 0xFF00FF00#32 = 0xFF#8 ++ 0#8 ++ 0xFF#8 ++ 0#8 := rfl
  rw [h, hmask, BitVec.and_append, BitVec.and_append, BitVec.and_append, Bool.eq_iff_iff, beq_iff_eq, beq_iff_eq]
  simp only [append_eq_append_iff, and_ff, BitVec.and_zero, true_and, and_true]

/-- The mask of a row that names the counter index too. -/
theorem matches_cop_nw (h : pattern = MARK ++ 0#8 ++ k ++ n) :
    ((MARK ++ a ++ c ++ f &&& 0xFF00FFFF#32) == pattern) = (c == k && f == n) := by
  have hmask : 0xFF00FFFF#32 = 0xFF#8 ++ 0#8 ++ 0xFF#8 ++ 0xFF#8 := rfl
  rw [h, hmask, BitVec.and_append, BitVec.and_append, BitVec.and_append, Bool.eq_iff_iff, beq_iff_eq,
    Bool.and_eq_true, beq_iff_eq, beq_iff_eq]
  simp only [append_eq_append_iff, and_ff, BitVec.and_zero, true_and]

/-- The mask of the default row. -/
theorem matches_mark : ((MARK ++ a ++ c ++ f &&& 0xFF000000#32) == 0xFF000000#32) = true := by
  have hmask : 0xFF000000#32 = MARK ++ 0#8 ++ 0#8 ++ 0#8 := rfl
  rw [hmask, BitVec.and_append, BitVec.and_append, BitVec.and_append, BitVec.and_self]
  simp only [BitVec.and_zero, beq_self_eq_true]

/-- The rows in priority order ask what the decoder's comparisons ask. -/
theorem selectRow_fields (t : List Byte) : selectRow (MARK ++ a ++ c ++ f) = some (instrOfFields a c f t).row := by
  simp only [selectRow, opcodeTable, List.find?_cons, matches_mark,
    matches_cop a c f (pattern := 0xFF00A100#32) (k := COP_SN) rfl,
    matches_cop a c f (pattern := 0xFF00C200#32) (k := COP_NET) rfl,
    matches_cop a c f (pattern := 0xFF00C300#32) (k := COP_GROSS) rfl,
    matches_cop a c f (pattern := 0xFF00BF00#32) (k := COP_STATUS) rfl,
    matches_cop_nw a c f (pattern := 0xFF00C804#32) (k := COP_COUNTER) (n := NW_CNT4) rfl,
    matches_cop_nw a c f (pattern := 0xFF00C808#32) (k := COP_COUNTER) (n := NW_CNT8) rfl,
    matches_cop a c f (pattern := 0xFF00C800#32) (k := COP_COUNTER) rfl]
  by_cases hsn : c = COP_SN
  · subst hsn; rfl
  by_cases hnet : c = COP_NET
  · subst hnet; rfl
  by_cases hgross : c = COP_GROSS
  · subst hgross; rfl
  by_cases hstatus : c = COP_STATUS
  · subst hstatus; rfl
  by_cases hcounter : c = COP_COUNTER
  · subst hcounter
    by_cases h4 : f = NW_CNT4
    · subst h4; rfl
    by_cases h8 : f = NW_CNT8
    · subst h8; rfl
    rw [beq_false_of_ne h4, beq_false_of_ne h8, instrOfFields, if_neg h4, if_neg h8]
    rfl
  · simp only [beq_false_of_ne hsn, beq_false_of_ne hnet, beq_false_of_ne hgross, beq_false_of_ne hstatus,
      beq_false_of_ne hcounter, instrOfFields, if_neg hsn, if_neg hnet, if_neg hgross, if_neg hstatus, if_neg hcounter]
    rfl

end

/-- Settles O20: the decode word of a frame holds the fields the decoder compares. -/
theorem tableRowIsDecodedRow : Obligations.TableRowIsDecodedRow := by
  intro F hF
  obtain ⟨a, c, f, t, rfl⟩ := isFrame_exists_request hF
  exact ⟨_, decodeFrame_requestFrame a c f t, selectRow_fields a c f t⟩

/-- Settles O21: fixed words, by evaluation. -/
theorem tableWordsDecode : Obligations.TableWordsDecode := by
  refine ⟨?_, ?_, ?_, ?_, ?_, ?_, ?_, ?_, ?_⟩ <;> decide

end Sys2Proof.Machine
end

section
/-! SUPPORT. The checksum as arithmetic of polynomials over GF(2) modulo the generator (spec/40_crc.md R105 and
R106). -/

namespace Sys2Proof.Spec

open Sys2Proof Sys2Proof.Machine Polynomial

/-! ### Bytes as polynomials -/

theorem bytePoly_coeff (b : Byte) (n : Nat) : (bytePoly b).coeff n = if b.getLsbD n then 1 else 0 := by
  have hterm (i : Nat) : (if b.getLsbD i then (X : (ZMod 2)[X]) ^ i else 0).coeff n =
      if n = i then (if b.getLsbD n then 1 else 0) else 0 := by
    split_ifs <;> simp_all [coeff_X_pow]
  rw [bytePoly, finsetSum_coeff, Finset.sum_congr rfl fun i _ => hterm i, Finset.sum_ite_eq]
  by_cases hn : n ∈ Finset.range 8
  · rw [if_pos hn]
  · rw [if_neg hn, BitVec.getLsbD_of_ge b n (by simpa using hn)]
    rfl

theorem bytePoly_injective : Function.Injective bytePoly := by
  intro a b h
  apply BitVec.eq_of_getLsbD_eq
  intro i _
  have hi := congrArg (fun p => p.coeff i) h
  simp only [bytePoly_coeff] at hi
  cases ha : a.getLsbD i <;> cases hb : b.getLsbD i <;> simp_all

theorem bytePoly_degree_lt (b : Byte) : (bytePoly b).degree < (8 : Nat) := by
  rw [degree_lt_iff_coeff_zero]
  intro n hn
  rw [bytePoly_coeff, BitVec.getLsbD_of_ge b n hn]
  rfl

@[simp] theorem bytePoly_zero : bytePoly 0#8 = 0 := by simp [bytePoly]

theorem bytePoly_ofBit (b : Bool) : bytePoly (Byte.ofBit b) = if b then 1 else 0 := by
  cases b
  · exact bytePoly_zero
  · simp [bytePoly, Byte.ofBit]

/-- XOR is addition of coefficients. -/
theorem bytePoly_xor (a b : Byte) : bytePoly (a ^^^ b) = bytePoly a + bytePoly b := by
  ext n
  rw [coeff_add, bytePoly_coeff, bytePoly_coeff, bytePoly_coeff, BitVec.getLsbD_xor]
  cases a.getLsbD n <;> cases b.getLsbD n <;> decide

theorem bytePoly_poly : bytePoly CRC_POLY = X ^ 6 + X ^ 5 + X ^ 3 + 1 := by
  simp [bytePoly, CRC_POLY, Finset.sum_range_succ]
  ring

/-! ### The generator -/

theorem generator_eq : generator = X ^ 8 + bytePoly CRC_POLY := by
  rw [generator, bytePoly_poly]
  ring

theorem generator_monic : generator.Monic := generator_eq ▸ monic_X_pow_add (bytePoly_degree_lt CRC_POLY)

theorem generator_degree : generator.degree = (8 : Nat) := by
  have hlt : (bytePoly CRC_POLY).degree < ((X : (ZMod 2)[X]) ^ 8).degree := by
    rw [degree_X_pow]
    exact bytePoly_degree_lt CRC_POLY
  rw [generator_eq, degree_add_eq_left_of_degree_lt hlt, degree_X_pow]

/-- The residues modulo the generator. -/
noncomputable abbrev residue : (ZMod 2)[X] →+* AdjoinRoot generator := AdjoinRoot.mk generator

@[simp] theorem residue_generator : residue generator = 0 := AdjoinRoot.mk_self

theorem bytePoly_mod (b : Byte) : bytePoly b %ₘ generator = bytePoly b :=
  (modByMonic_eq_self_iff generator_monic).mpr (generator_degree ▸ bytePoly_degree_lt b)

/-- A byte is determined by its residue. -/
theorem eq_of_residue_bytePoly_eq {a b : Byte} (h : residue (bytePoly a) = residue (bytePoly b)) : a = b := by
  apply bytePoly_injective
  rw [← bytePoly_mod a, ← bytePoly_mod b]
  exact modByMonic_eq_of_dvd_sub generator_monic (AdjoinRoot.mk_eq_mk.mp h)

/-! ### One shift of the accumulator -/

theorem bytePoly_shiftLeft_one (c : Byte) :
    bytePoly (c <<< 1) = X * bytePoly c + if c.getLsbD 7 then X ^ 8 else 0 := by
  ext n
  rw [coeff_add, bytePoly_coeff, BitVec.getLsbD_shiftLeft, apply_ite (fun p : (ZMod 2)[X] => p.coeff n), coeff_X_pow,
    coeff_zero]
  cases n with
  | zero => simp
  | succ n =>
    rw [coeff_X_mul, bytePoly_coeff]
    rcases lt_trichotomy n 7 with h | rfl | h
    · simp [show n + 1 < 8 by omega, Nat.ne_of_lt h]
    · cases c.getLsbD 7 <;> decide
    · simp [show ¬ n + 1 < 8 by omega, Nat.ne_of_gt h, BitVec.getLsbD_of_ge c n (by omega)]

/-- A shift multiplies by `x`; the XOR takes away the generator when the degree has reached 8. -/
theorem bytePoly_crc8Shift (c : Byte) :
    bytePoly (crc8Shift c) = X * bytePoly c + if c.getLsbD 7 then generator else 0 := by
  have hshift := bytePoly_shiftLeft_one c
  have hpoly : (0x69#8 : Byte) = CRC_POLY := rfl
  rw [crc8Shift, hpoly]
  by_cases hc : c.getLsbD 7 = true
  · rw [if_pos hc] at hshift ⊢
    rw [if_pos hc, bytePoly_xor, hshift, generator_eq, add_assoc]
  · rw [if_neg hc] at hshift ⊢
    rw [if_neg hc, hshift]

theorem residue_crc8Shift (c : Byte) : residue (bytePoly (crc8Shift c)) = residue (X * bytePoly c) := by
  rw [bytePoly_crc8Shift, map_add, apply_ite residue, residue_generator, map_zero, ite_self, add_zero]

theorem residue_crc8Shift_iterate (n : Nat) (c : Byte) :
    residue (bytePoly (crc8Shift^[n] c)) = residue (X ^ n * bytePoly c) := by
  induction n with
  | zero => simp
  | succ n ih =>
    rw [Function.iterate_succ_apply', residue_crc8Shift, map_mul, ih, ← map_mul, pow_succ', mul_assoc]

/-- An iteration of the engine is the conventional shift, with the next message bit put in below. -/
theorem crcBit_crc_eq_crc8Shift (g : CrcEngine) : (crcBit g).crc = crc8Shift g.crc ^^^ Byte.ofBit g.wk.msb := by
  have hor : g.crc <<< 1 ||| Byte.ofBit g.wk.msb = g.crc <<< 1 ^^^ Byte.ofBit g.wk.msb := by
    cases g.wk.msb
    · simp [Byte.ofBit]
    · apply BitVec.eq_of_getLsbD_eq
      intro i _
      cases i <;> simp [Byte.ofBit]
  have hmsb : g.crc.msb = g.crc.getLsbD 7 := BitVec.msb_eq_getLsbD_last g.crc
  simp only [crcBit, hor, crc8Shift, hmsb]
  cases g.crc.getLsbD 7
  · rfl
  · change _ ^^^ CRC_POLY = _ ^^^ CRC_POLY ^^^ _
    ac_rfl

/-! ### The engine's loop -/

/-- The top `n` bits of a byte as a polynomial. -/
noncomputable def topPoly (n : Nat) (b : Byte) : (ZMod 2)[X] :=
  ∑ i ∈ Finset.range n, if b.getLsbD (8 - n + i) then X ^ i else 0

theorem topPoly_eight (b : Byte) : topPoly 8 b = bytePoly b := by simp [topPoly, bytePoly]

theorem getLsbD_crcBit_wk (g : CrcEngine) {j : Nat} (hj : j < 7) :
    (crcBit g).wk.getLsbD (j + 1) = g.wk.getLsbD j := by
  simp [crcBit_wk, show j + 1 < 8 by omega, -BitVec.getLsbD_eq_getElem]

/-- The bit that an iteration takes from `wk` is the highest of the bits still to come. -/
theorem topPoly_succ (g : CrcEngine) {n : Nat} (hn : n < 8) :
    topPoly (n + 1) g.wk = topPoly n (crcBit g).wk + X ^ n * bytePoly (Byte.ofBit g.wk.msb) := by
  rw [topPoly, Finset.sum_range_succ, topPoly, bytePoly_ofBit, show 8 - (n + 1) + n = 7 by omega,
    BitVec.msb_eq_getLsbD_last]
  congr 1
  · refine Finset.sum_congr rfl fun i hi => ?_
    rw [Finset.mem_range] at hi
    rw [← getLsbD_crcBit_wk g (by omega), show 8 - (n + 1) + i + 1 = 8 - n + i by omega]
  · simp

theorem residue_crcBits {n : Nat} (hn : n ≤ 8) (g : CrcEngine) :
    residue (bytePoly (crcBits n g).crc) = residue (X ^ n * bytePoly g.crc + topPoly n g.wk) := by
  induction n generalizing g with
  | zero => simp [crcBits, topPoly]
  | succ n ih =>
    rw [crcBits, ih (by omega), crcBit_crc_eq_crc8Shift, bytePoly_xor, topPoly_succ g hn, mul_add]
    simp only [map_add, map_mul, residue_crc8Shift, pow_succ]
    ring

/-- Feeding a byte multiplies by `x^8` and adds the byte (R101, R105). -/
theorem residue_crcByte (c b : Byte) :
    residue (bytePoly (crcByte c b)) = residue (bytePoly c * X ^ 8 + bytePoly b) := by
  rw [crcByte, crcFeed, residue_crcBits le_rfl, topPoly_eight, mul_comm]

theorem messagePoly_concat (m : List Byte) (b : Byte) :
    messagePoly (m ++ [b]) = messagePoly m * X ^ 8 + bytePoly b := by
  simp [messagePoly]

theorem residue_checksum (m : List Byte) : residue (bytePoly (checksum m)) = residue (messagePoly m) := by
  induction m using List.reverseRecOn with
  | nil => simp [messagePoly]
  | append_singleton m b ih =>
    rw [checksum_concat, residue_crcByte, messagePoly_concat]
    rw [map_add, map_mul, ih, map_add, map_mul]

/-- Settles O3: checksum and message have one residue, and a byte is its own remainder. -/
theorem checksumIsPolynomialRemainder : Obligations.ChecksumIsPolynomialRemainder := by
  intro m
  rw [← bytePoly_mod]
  exact modByMonic_eq_of_dvd_sub generator_monic (AdjoinRoot.mk_eq_mk.mp (residue_checksum m))

/-! ### Consequences for the checksum (R106) -/

theorem messagePoly_cons (b : Byte) (m : List Byte) :
    messagePoly (b :: m) = bytePoly b * X ^ (8 * m.length) + messagePoly m := by
  induction m using List.reverseRecOn with
  | nil => simp [messagePoly]
  | append_singleton m c ih =>
    rw [← List.cons_append, messagePoly_concat, messagePoly_concat, ih, List.length_append, List.length_singleton]
    ring

theorem messagePoly_zipWith_xor {a b : List Byte} (h : a.length = b.length) :
    messagePoly (List.zipWith (fun x y => x ^^^ y) a b) = messagePoly a + messagePoly b := by
  induction a generalizing b with
  | nil =>
    obtain rfl := List.length_eq_zero_iff.mp h.symm
    simp [messagePoly]
  | cons x a ih =>
    obtain ⟨y, b, rfl⟩ := List.exists_cons_of_length_eq_add_one h.symm
    have hlen : a.length = b.length := Nat.succ.inj h
    have hzip : (List.zipWith (fun x y => x ^^^ y) a b).length = b.length := by simp [hlen]
    rw [List.zipWith_cons_cons, messagePoly_cons, messagePoly_cons, messagePoly_cons, ih hlen, bytePoly_xor, hzip, hlen]
    ring

/-- Settles O4: the message polynomial of the bytewise XOR is the sum, and so is its residue. -/
theorem checksumIsLinear : Obligations.ChecksumIsLinear := by
  intro a b h
  apply eq_of_residue_bytePoly_eq
  rw [residue_checksum, messagePoly_zipWith_xor h, bytePoly_xor, map_add, map_add, residue_checksum, residue_checksum]

theorem crc8_concat (m : List Byte) (b : Byte) : crc8 (m ++ [b]) = crc8Shift^[8] (crc8 m ^^^ b) := by
  simp [crc8]

/-- The conventional CRC-8 is the remainder of the message times `x^8` (R106 (3)). -/
theorem residue_crc8 (m : List Byte) : residue (bytePoly (crc8 m)) = residue (messagePoly m * X ^ 8) := by
  induction m using List.reverseRecOn with
  | nil => simp [crc8, messagePoly]
  | append_singleton m b ih =>
    rw [crc8_concat, residue_crc8Shift_iterate, bytePoly_xor, map_mul, map_add, ih, ← map_add, ← map_mul,
      messagePoly_concat, mul_comm]

theorem residue_checksum_zero_slot (m : List Byte) :
    residue (bytePoly (checksum (m ++ [0x00#8]))) = residue (messagePoly m * X ^ 8) := by
  rw [residue_checksum, messagePoly_concat, bytePoly_zero, add_zero]

/-- Settles O5: a zero byte in front leaves the accumulator cleared, one behind multiplies the message by `x^8`. -/
theorem checksumIsConventionalCrcOfBody : Obligations.ChecksumIsConventionalCrcOfBody := by
  refine ⟨fun k m => ?zeros, fun m => eq_of_residue_bytePoly_eq ?conventional⟩
  case zeros =>
    induction k with
    | zero => rfl
    | succ k ih => rw [List.replicate_succ, List.cons_append, checksum_zero_cons, ih]
  case conventional => rw [residue_checksum_zero_slot, residue_crc8]

/-- Settles O6: in place of the slot the CRC byte is added to its own residue; behind it, it is not. -/
theorem remainderTestNeedsSlotReplaced : Obligations.RemainderTestNeedsSlotReplaced := by
  refine ⟨fun m => eq_of_residue_bytePoly_eq ?_, [0x14#8, 0xA1#8, 0x12#8, 0x34#8, 0x56#8], by decide +kernel⟩
  rw [residue_checksum, messagePoly_concat, map_add, residue_checksum_zero_slot, ← map_add, CharTwo.add_self_eq_zero,
    bytePoly_zero]

end Sys2Proof.Spec
end

section
/-! SUPPORT. The BCD packings and their inverses (spec/41_bcd.md R123, R124, R126, R128, R129). -/

namespace Sys2Proof

theorem Byte.eq_ofNat_nibbles (v : Byte) : v = BitVec.ofNat 8 (16 * v.hi + v.lo) := by
  rw [Byte.hi, Byte.lo, Nat.div_add_mod, BitVec.ofNat_toNat, BitVec.setWidth_eq]

end Sys2Proof

namespace Sys2Proof.Machine

open Sys2Proof Sys2Proof.Spec

/-! ### A byte of two decimal digits -/

theorem bcdPair_toNat (v j : Nat) :
    (bcdPair v j).toNat = 16 * (v / 10 ^ (2 * j + 1) % 10) + v / 10 ^ (2 * j) % 10 := by
  have hlow : v / 10 ^ (2 * j) % 10 < 10 := Nat.mod_lt _ (by decide)
  have hhigh : v / 10 ^ (2 * j + 1) % 10 < 10 := Nat.mod_lt _ (by decide)
  rw [bcdPair, BitVec.toNat_ofNat, Nat.mod_eq_of_lt (by omega)]

theorem bcdPair_hi (v j : Nat) : (bcdPair v j).hi = v / 10 ^ (2 * j + 1) % 10 := by
  have hlow : v / 10 ^ (2 * j) % 10 < 10 := Nat.mod_lt _ (by decide)
  rw [Byte.hi, bcdPair_toNat]
  omega

theorem bcdPair_lo (v j : Nat) : (bcdPair v j).lo = v / 10 ^ (2 * j) % 10 := by
  have hlow : v / 10 ^ (2 * j) % 10 < 10 := Nat.mod_lt _ (by decide)
  rw [Byte.lo, bcdPair_toNat]
  omega

theorem validBcd_iff (b : Byte) : validBcd b = true ↔ b.hi ≤ 9 ∧ b.lo ≤ 9 := by simp [validBcd]

theorem validBcd_eq_false_iff (b : Byte) : validBcd b = false ↔ 9 < b.hi ∨ 9 < b.lo := by
  rw [← Bool.not_eq_true, validBcd_iff, not_and_or, Nat.not_le, Nat.not_le]

theorem validBcd_bcdPair (v j : Nat) : validBcd (bcdPair v j) = true := by
  rw [validBcd_iff, bcdPair_hi, bcdPair_lo]
  omega

/-- A byte is pair `j` of a number whose two digits there are its nibbles. -/
theorem bcdPair_eq_of_digits {v j : Nat} {b : Byte} (hhi : v / 10 ^ (2 * j + 1) % 10 = b.hi)
    (hlo : v / 10 ^ (2 * j) % 10 = b.lo) : bcdPair v j = b := by
  rw [bcdPair, hhi, hlo, ← Byte.eq_ofNat_nibbles]

/-! ### The decoders on valid and on invalid bytes -/

theorem weightDecode_of_valid {b0 b1 b2 : Byte} (h0 : validBcd b0 = true) (h1 : validBcd b1 = true)
    (h2 : validBcd b2 = true) :
    weightDecode b0 b1 b2 =
      .ok (100000 * b2.hi + 10000 * b2.lo + 1000 * b1.hi + 100 * b1.lo + 10 * b0.hi + b0.lo) := by
  simp [weightDecode, h0, h1, h2]

theorem counterDecode_of_valid {c0 c1 c2 c3 c4 : Byte} (h0 : validBcd c0 = true) (h1 : validBcd c1 = true)
    (h2 : validBcd c2 = true) (h3 : validBcd c3 = true) (h4 : validBcd c4 = true) :
    counterDecode c0 c1 c2 c3 c4 =
      .ok (unpack c0 + unpack c1 * 100 + unpack c2 * 100 ^ 2 + unpack c3 * 100 ^ 3 + unpack c4 * 100 ^ 4) := by
  simp [counterDecode, h0, h1, h2, h3, h4]

theorem cond_ok_eq_error_iff (v : Bool) (n : Nat) :
    (bif v then Except.ok n else .error BcdError.bcdInvalid) = .error .bcdInvalid ↔ v = false := by
  cases v <;> simp

theorem weightDecode_eq_error_iff (b0 b1 b2 : Byte) :
    weightDecode b0 b1 b2 = .error .bcdInvalid ↔ ∃ b ∈ [b0, b1, b2], validBcd b = false := by
  rw [weightDecode, cond_ok_eq_error_iff]
  simp only [Bool.and_eq_false_iff, or_assoc, List.exists_mem_cons_iff, List.not_mem_nil, false_and, exists_false,
    or_false]

theorem counterDecode_eq_error_iff (c0 c1 c2 c3 c4 : Byte) :
    counterDecode c0 c1 c2 c3 c4 = .error .bcdInvalid ↔ ∃ b ∈ [c0, c1, c2, c3, c4], validBcd b = false := by
  rw [counterDecode, cond_ok_eq_error_iff]
  simp only [Bool.and_eq_false_iff, or_assoc, List.exists_mem_cons_iff, List.not_mem_nil, false_and, exists_false,
    or_false]

/-- Settles O9: the decimal digits of a number sum up to it, and the digits of the sum are the nibbles. -/
theorem weightRoundTrip : Obligations.WeightRoundTrip := by
  refine ⟨fun m hm => ?_, fun b0 b1 b2 h => ?_⟩
  · refine ⟨_, _, _, weightEncode_eq_bcdPairs hm, ?_⟩
    rw [weightDecode_of_valid (validBcd_bcdPair m 0) (validBcd_bcdPair m 1) (validBcd_bcdPair m 2)]
    simp only [bcdPair_hi, bcdPair_lo]
    congr 1
    omega
  · simp only [List.forall_mem_cons, List.not_mem_nil, false_implies, implies_true, and_true] at h
    obtain ⟨h0, h1, h2⟩ := h
    have hm : 100000 * b2.hi + 10000 * b2.lo + 1000 * b1.hi + 100 * b1.lo + 10 * b0.hi + b0.lo ≤ W_MAX := by
      rw [W_MAX]
      omega
    refine ⟨_, hm, weightDecode_of_valid ((validBcd_iff _).mpr h0) ((validBcd_iff _).mpr h1)
      ((validBcd_iff _).mpr h2), ?_⟩
    rw [weightEncode_eq_bcdPairs hm, bcdPair_eq_of_digits (b := b0), bcdPair_eq_of_digits (b := b1),
      bcdPair_eq_of_digits (b := b2)] <;> omega

/-- Settles O10: the same for five pairs of digits. -/
theorem counterRoundTrip : Obligations.CounterRoundTrip := by
  refine ⟨fun c hc => ?_, fun c0 c1 c2 c3 c4 h => ?_⟩
  · refine ⟨_, _, _, _, _, counterEncode_eq_bcdPairs hc, ?_⟩
    rw [counterDecode_of_valid (validBcd_bcdPair c 0) (validBcd_bcdPair c 1) (validBcd_bcdPair c 2)
      (validBcd_bcdPair c 3) (validBcd_bcdPair c 4)]
    simp only [unpack, bcdPair_hi, bcdPair_lo]
    congr 1
    omega
  · simp only [List.forall_mem_cons, List.not_mem_nil, false_implies, implies_true, and_true] at h
    obtain ⟨h0, h1, h2, h3, h4⟩ := h
    have hc :
        unpack c0 + unpack c1 * 100 + unpack c2 * 100 ^ 2 + unpack c3 * 100 ^ 3 + unpack c4 * 100 ^ 4 ≤ C_MAX := by
      simp only [unpack, C_MAX]
      omega
    refine ⟨_, hc, counterDecode_of_valid ((validBcd_iff _).mpr h0) ((validBcd_iff _).mpr h1)
      ((validBcd_iff _).mpr h2) ((validBcd_iff _).mpr h3) ((validBcd_iff _).mpr h4), ?_⟩
    rw [counterEncode_eq_bcdPairs hc, bcdPair_eq_of_digits (b := c0), bcdPair_eq_of_digits (b := c1),
      bcdPair_eq_of_digits (b := c2), bcdPair_eq_of_digits (b := c3), bcdPair_eq_of_digits (b := c4)] <;>
      simp only [unpack] <;> omega

/-- Settles O11: the decoders test `validBcd` of every byte, and a byte fails it by one of its nibbles. -/
theorem decodersRejectInvalidNibbles : Obligations.DecodersRejectInvalidNibbles := by
  simp only [Obligations.DecodersRejectInvalidNibbles, weightDecode_eq_error_iff, counterDecode_eq_error_iff,
    validBcd_eq_false_iff, implies_true, and_self]

end Sys2Proof.Machine
end

section
/-! SUPPORT. The bytes of a response and the whole state after a dispatch step (spec/30_encoding.md sections 3 and 4,
spec/43_dispatch.md, spec/44_session.md R196). -/

namespace Sys2Proof

theorem Byte.getLsbD_ofBit (b : Bool) (i : Nat) : (Byte.ofBit b).getLsbD i = (decide (i = 0) && b) := by
  cases b <;> simp [Byte.ofBit, BitVec.getLsbD_one]

end Sys2Proof

namespace Sys2Proof.Machine

open Sys2Proof Sys2Proof.Spec

/-! ### The CON byte (R73) -/

/-- Settles O38: each operand of the OR is one bit, shifted to its place. -/
theorem conByteLayout : Obligations.ConByteLayout := by
  intro S net
  simp only [conByte, BitVec.getLsbD_or, BitVec.getLsbD_shiftLeft, Byte.getLsbD_ofBit, DP]
  simp [DeviceState.negative]

theorem conByte_eq_conValue (S : DeviceState) (net : Bool) : conByte S net = conValue S net := by
  obtain ⟨h7, h6, h5, h4, h3, h2, h1, h0⟩ := conByteLayout S net
  have h := eq_ofNat_sum_bits (conByte S net)
  simp only [Finset.sum_range_succ_comm, Finset.sum_range_zero, h7, h6, h5, h4, h3, h2, h1, h0] at h
  rw [h, conValue]
  simp [add_assoc]

theorem snBytes_eq (S : DeviceState) :
    S.snBytes =
      [BitVec.ofNat 8 (S.sn.toNat / 65536), BitVec.ofNat 8 (S.sn.toNat / 256), BitVec.ofNat 8 S.sn.toNat] := by
  simp [DeviceState.snBytes, BitVec.extractLsb', Nat.shiftRight_eq_div_pow]

/-! ### Responses (R72, R83, R161) -/

/-- `Assemble` frames the body and leaves the engine with its checksum and the slot byte. -/
theorem assemble_eq_framed (S : DeviceState) (F data : List Byte) :
    assemble S F data = .respond (framed (responseBody S F data)) ⟨checksum (responseBody S F data), 0x00#8⟩ :=
  assemble_eq S F data

theorem framed_length (body : List Byte) : (framed body).length = body.length + 4 := by simp [framed]

theorem bodyOf_framed (body : List Byte) : bodyOf (framed body) = body := by
  rw [bodyOf, framed_length]
  simp [framed]

/-- The test of R258 on a framed body that ends with the slot byte. -/
theorem wellBuilt_framed {init : List Byte} (h : init.length + 5 ∈ [8, 10, 11, 13]) :
    wellBuilt (framed (init ++ [SLOT])) = true := by
  have hlen : (framed (init ++ [SLOT])).length = init.length + 5 := by simp [framed_length]
  have hinit : 3 ≤ init.length := by
    simp only [List.mem_cons, List.not_mem_nil, or_false] at h
    omega
  have hF : isFrame (framed (init ++ [SLOT])) = true :=
    (isFrame_iff _).mpr ⟨init ++ [SLOT, checksum (init ++ [SLOT])], by simp; omega, by simp [framed, MARK]⟩
  have hat (i : Nat) : byteAt (framed (init ++ [SLOT])) (init.length + 1 + i) =
      byteAt [SLOT, checksum (init ++ [SLOT]), 0xFF#8, 0xFF#8] i := by
    have hsplit : framed (init ++ [SLOT]) = (0xFF#8 :: init) ++ [SLOT, checksum (init ++ [SLOT]), 0xFF#8, 0xFF#8] := by
      simp [framed]
    rw [hsplit, byteAt_append_right _ _ _ (by simp)]
    congr 1
    simp
  rw [wellBuilt, hF, hlen, bodyOf_framed, show init.length + 5 - 4 = init.length + 1 + 0 by omega,
    show init.length + 5 - 3 = init.length + 1 + 1 by omega, hat, hat, List.contains_iff_mem.mpr h]
  simp

/-! ### What a command answers -/

theorem weightReply_in {net : Bool} {S : DeviceState} {F : List Byte} (h : S.magnitude ≤ W_MAX) :
    weightReply net S F = assemble S F
      [bcdPair S.magnitude 0, bcdPair S.magnitude 1, bcdPair S.magnitude 2, conValue S net] := by
  simp [weightReply, weightEncode_eq_bcdPairs h, conByte_eq_conValue]

theorem weightReply_over {net : Bool} {S : DeviceState} {F : List Byte} (h : W_MAX < S.magnitude) :
    weightReply net S F = .error (reqCop F) := by
  simp [weightReply, weightEncode_over h]

theorem cntq_in {S : DeviceState} {F : List Byte} {c : Nat} (hl : counterLookup S (reqNw F) = some c) (h : c ≤ C_MAX) :
    cntq S F = assemble S F
      [reqNw F, bcdPair c 0, bcdPair c 1, bcdPair c 2, bcdPair c 3, bcdPair c 4] := by
  simp [cntq, hl, counterEncode_eq_bcdPairs h]

theorem cntq_over {S : DeviceState} {F : List Byte} {c : Nat} (hl : counterLookup S (reqNw F) = some c)
    (h : C_MAX < c) :
    cntq S F = .error (reqCop F) := by
  simp [cntq, hl, counterEncode_over h]

theorem counterLookup_cntq4 (S : DeviceState) (a : Byte) (t : List Byte) :
    counterLookup S (reqNw (encode (.cntq4 a t))) = some S.cnt4.toNat := rfl

theorem counterLookup_cntq8 (S : DeviceState) (a : Byte) (t : List Byte) :
    counterLookup S (reqNw (encode (.cntq8 a t))) = some S.cnt8.toNat := rfl

theorem counterLookup_unpopulated (S : DeviceState) {nw : Byte} (h4 : nw ≠ NW_CNT4) (h8 : nw ≠ NW_CNT8) :
    counterLookup S nw = none := by
  rw [counterLookup, if_neg h4, if_neg h8]

theorem cntq_unpopulated {S : DeviceState} {F : List Byte} (h4 : reqNw F ≠ NW_CNT4) (h8 : reqNw F ≠ NW_CNT8) :
    cntq S F = assemble S F [reqNw F] := by
  simp [cntq, counterLookup_unpopulated S h4 h8]

theorem inBudget_iff (S : DeviceState) :
    S.inBudget = true ↔ S.magnitude ≤ W_MAX ∧ S.cnt4.toNat ≤ C_MAX ∧ S.cnt8.toNat ≤ C_MAX := by
  simp [DeviceState.inBudget, and_assoc]

theorem weightReply_answers (net : Bool) (S : DeviceState) (F : List Byte) :
    (∃ data, data.length + 7 = 11 ∧ weightReply net S F = assemble S F data) ∨
    (S.inBudget ≠ true ∧ weightReply net S F = .error (reqCop F)) := by
  by_cases h : S.magnitude ≤ W_MAX
  · exact .inl ⟨_, rfl, weightReply_in h⟩
  · exact .inr ⟨fun hb => h ((inBudget_iff S).mp hb).1, weightReply_over (Nat.not_le.mp h)⟩

theorem cntq_answers {S : DeviceState} {F : List Byte} {c : Nat} (hl : counterLookup S (reqNw F) = some c)
    (hc : S.inBudget = true → c ≤ C_MAX) :
    (∃ data, data.length + 7 = 13 ∧ cntq S F = assemble S F data) ∨
    (S.inBudget ≠ true ∧ cntq S F = .error (reqCop F)) := by
  by_cases h : c ≤ C_MAX
  · exact .inl ⟨_, rfl, cntq_in hl h⟩
  · exact .inr ⟨fun hb => h (hc hb), cntq_over hl (Nat.not_le.mp h)⟩

/-- Everything an instruction of its row can be answered with: its row's data, nothing for NOP, or class (e) from a bank
out of budget. -/
theorem command_cases {i : Instr} (hrow : i.rowOk = true) (S : DeviceState) :
    (∃ data, data.length + 7 = answerLength i ∧ Instr.command i S (encode i) = assemble S (encode i) data) ∨
    (i.row = .nop ∧ Instr.command i S (encode i) = .noResponse) ∨
    (S.inBudget ≠ true ∧ Instr.command i S (encode i) = .error (reqCop (encode i))) := by
  cases i with
  | snq => exact .inl ⟨S.snBytes, rfl, rfl⟩
  | wnet => exact (weightReply_answers true S _).imp_right .inr
  | wgrs => exact (weightReply_answers false S _).imp_right .inr
  | stq => exact .inl ⟨[statusByte S], rfl, rfl⟩
  | cntq4 a t =>
    have hc (hb : S.inBudget = true) : S.cnt4.toNat ≤ C_MAX := ((inBudget_iff S).mp hb).2.1
    exact (cntq_answers (counterLookup_cntq4 S a t) hc).imp_right .inr
  | cntq8 a t =>
    have hc (hb : S.inBudget = true) : S.cnt8.toNat ≤ C_MAX := ((inBudget_iff S).mp hb).2.2
    exact (cntq_answers (counterLookup_cntq8 S a t) hc).imp_right .inr
  | cntqOther a nw t =>
    obtain ⟨h4, h8⟩ := (rowOk_cntqOther_iff a nw t).mp hrow
    exact .inl ⟨[nw], rfl, cntq_unpopulated h4 h8⟩
  | nop => exact .inr (.inl ⟨rfl, rfl⟩)

/-- The dispatcher selects the command of the instruction whose frame it is given (R160, R79). -/
theorem dispatch_encode {i : Instr} (hrow : i.rowOk = true) (S : DeviceState) :
    dispatch S (encode i) = Instr.command i S (encode i) := by
  cases i with
  | snq => exact dispatch_eq_snq S rfl
  | wnet => exact dispatch_eq_wnet S rfl
  | wgrs => exact dispatch_eq_wgrs S rfl
  | stq => exact dispatch_eq_stq S rfl
  | cntq4 => exact dispatch_eq_cntq S rfl
  | cntq8 => exact dispatch_eq_cntq S rfl
  | cntqOther => exact dispatch_eq_cntq S rfl
  | nop a c f t =>
    have h := (rowOk_nop_iff a c f t).mp hrow
    exact dispatch_eq_noResponse S (by simpa [encode, reqCop] using h)

theorem answerLength_mem {i : Instr} (h : 0 < answerLength i) : answerLength i ∈ [8, 10, 11, 13] := by
  cases i with
  | nop => exact absurd h (Nat.lt_irrefl 0)
  | snq | wnet | wgrs | stq | cntq4 | cntq8 | cntqOther => simp [answerLength]

/-- A response of a row's length is well built. -/
theorem assemble_wellBuilt {i : Instr} {S : DeviceState} {F data T : List Byte} {g : CrcEngine}
    (hlen : data.length + 7 = answerLength i) (h : assemble S F data = .respond T g) :
    wellBuilt T = true ∧ T.length = answerLength i ∧ T[1]? = some S.addr ∧ T[2]? = some (reqCop F) ∧
      g.crc = checksum (bodyOf T) := by
  rw [assemble_eq_framed] at h
  cases h
  have hT : (framed (responseBody S F data)).length = answerLength i := by
    rw [framed_length, ← hlen]
    simp [responseBody]
  refine ⟨wellBuilt_framed ?_, hT, rfl, rfl, by rw [bodyOf_framed]⟩
  have hmem := answerLength_mem (i := i) (by omega)
  rw [← hlen] at hmem
  exact hmem

/-- Settles O36: the only responses are assembled from data of the row's length. -/
theorem responsesAreWellBuilt : Obligations.ResponsesAreWellBuilt := by
  intro i S T g hrow h
  rw [dispatch_encode hrow] at h
  obtain ⟨data, hlen, hdata⟩ | ⟨-, hnone⟩ | ⟨-, herror⟩ := command_cases hrow S
  · obtain ⟨hbuilt, hT, haddr, hcop, hcrc⟩ := assemble_wellBuilt hlen (hdata ▸ h)
    obtain ⟨a, c, f, he, -⟩ := exists_fields_of_rowOk hrow
    exact ⟨hbuilt, hT, haddr, hcop.trans (by rw [he]; rfl), hcrc⟩
  · rw [hnone] at h
    cases h
  · rw [herror] at h
    cases h

end Sys2Proof.Machine
end

section
/-! SUPPORT. The whole next state of an instruction (spec/43_dispatch.md section 3, spec/44_session.md R196,
spec/60_exceptions.md R214 and R215). -/

namespace Sys2Proof.Machine

open Sys2Proof Sys2Proof.Spec

/-! ### The dispatch step as one update of the state -/

/-- The log line and the handshake mark as one update. -/
theorem State.logged_eq (F : List Byte) (s : State) :
    (s.emit (.rxFrame F)).markHandshake = { s with hs := true, ev := s.ev ++ logEvents F s.hs } := by
  cases s with
  | mk isOpen hs rxbuf ds crc wk tx ev inputs sendFails freeIdx =>
    cases hs <;> simp [State.emit, State.markHandshake, logEvents]

theorem State.dispatchStep_eq (c : DeviceState → List Byte → Reply) (F : List Byte) (s : State) :
    s.dispatchStep c F =
      ({ s with hs := true, ev := s.ev ++ logEvents F s.hs } : State).conclude (c s.ds F) := by
  rw [State.dispatchStep, State.logged_eq]
  rfl

section
variable {c : DeviceState → List Byte → Reply} {F : List Byte} {s : State}

theorem State.dispatchStep_congr {c' : DeviceState → List Byte → Reply} (h : c s.ds F = c' s.ds F) :
    s.dispatchStep c F = s.dispatchStep c' F := by
  rw [State.dispatchStep_eq, State.dispatchStep_eq, h]

theorem State.dispatchStep_answered {data : List Byte} (hr : c s.ds F = assemble s.ds F data)
    (hf : s.sendFails = false) : s.dispatchStep c F = answered s F (responseBody s.ds F data) := by
  rw [State.dispatchStep_eq, hr, assemble_eq_framed]
  simp [State.conclude, State.send, State.loadEngine, State.appendTx, State.emit, hf, answered]

theorem State.dispatchStep_sendFails {T : List Byte} {g : CrcEngine} (hr : c s.ds F = .respond T g)
    (hf : s.sendFails = true) :
    s.dispatchStep c F =
      { s with
        hs := true
        tx := s.tx ++ T.take (Config.sentBeforeFault s.freeIdx)
        ev := s.ev ++ logEvents F s.hs ++ [writeFault]
        crc := g.crc
        wk := g.wk
        sendFails := false
        freeIdx := s.freeIdx + 1 } := by
  rw [State.dispatchStep_eq, hr]
  simp [State.conclude, State.send, State.failSend, State.loadEngine, State.appendTx, State.raiseError,
    ErrorClass.reported, State.emit, hf, writeFault]

theorem State.dispatchStep_noResponse (hr : c s.ds F = .noResponse) : s.dispatchStep c F = unanswered s F [] := by
  rw [State.dispatchStep_eq, hr, unanswered, List.append_nil]
  rfl

theorem State.dispatchStep_error {k : Byte} (hr : c s.ds F = .error k) :
    s.dispatchStep c F = unanswered s F [numericError k] := by
  rw [State.dispatchStep_eq, hr]
  rfl

end

theorem State.dispatchStep_tx (c : DeviceState → List Byte → Reply) (F : List Byte) (s : State) :
    ∃ bs, (s.dispatchStep c F).tx = s.tx ++ bs := by
  obtain ⟨T, -, -, -, htx, -⟩ | ⟨T, -, -, -, htx, -⟩ | ⟨-, htx, -⟩ | ⟨k, -, htx, -⟩ := s.dispatchStep_cases c F
  · exact ⟨_, htx⟩
  · exact ⟨_, htx⟩
  · exact ⟨[], by rw [htx, List.append_nil]⟩
  · exact ⟨[], by rw [htx, List.append_nil]⟩

/-- After the log events comes at most one event, and it is no handshake. -/
theorem State.dispatchStep_ev (c : DeviceState → List Byte → Reply) (F : List Byte) (s : State) :
    ∃ es, (s.dispatchStep c F).ev = s.ev ++ logEvents F s.hs ++ es ∧ es.length ≤ 1 ∧ handshakes es = 0 := by
  obtain ⟨T, -, -, -, -, hev⟩ | ⟨T, -, -, -, -, hev⟩ | ⟨-, -, hev⟩ | ⟨k, -, -, hev⟩ := s.dispatchStep_cases c F
  · exact ⟨_, hev, le_rfl, rfl⟩
  · exact ⟨_, hev, le_rfl, rfl⟩
  · exact ⟨[], by rw [hev, List.append_nil], Nat.zero_le 1, rfl⟩
  · exact ⟨_, hev, le_rfl, rfl⟩

/-! ### The commands, each by what it answers -/

section
variable {i : Instr} {s : State}

theorem exec_answered {data body : List Byte} (hf : s.sendFails = false)
    (hr : Instr.command i s.ds (encode i) = assemble s.ds (encode i) data)
    (hbody : responseBody s.ds (encode i) data = body) : exec i s = .next (answered s (encode i) body) := by
  rw [exec_eq_dispatchStep, State.dispatchStep_answered hr hf, hbody]

theorem exec_error {k : Byte} (hr : Instr.command i s.ds (encode i) = .error (reqCop (encode i)))
    (hk : reqCop (encode i) = k) : exec i s = .next (unanswered s (encode i) [numericError k]) := by
  rw [exec_eq_dispatchStep, State.dispatchStep_error hr, hk]

end

/-- Settles O22: the data are the three bytes of the serial number. -/
theorem serialQueryAnswers : Obligations.SerialQueryAnswers := by
  intro adr f3 tail s hf
  exact exec_answered (i := .snq adr f3 tail) hf (congrArg (assemble _ _) (snBytes_eq s.ds)) rfl

/-- Settles O23: within the budget each weight command assembles the packed magnitude and its CON byte. -/
theorem weightQueriesAnswer : Obligations.WeightQueriesAnswer := by
  intro adr f3 tail s hf hm
  exact ⟨exec_answered (i := .wnet adr f3 tail) hf (weightReply_in hm) rfl,
    exec_answered (i := .wgrs adr f3 tail) hf (weightReply_in hm) rfl⟩

/-- Settles O24: the data is the status register. -/
theorem statusQueryAnswers : Obligations.StatusQueryAnswers := by
  intro adr f3 tail s hf
  exact exec_answered (i := .stq adr f3 tail) (data := [s.ds.status]) hf rfl rfl

/-- Settles O25: the populated index selects its counter, and only that counter's budget is tested. -/
theorem counterQueriesAnswer : Obligations.CounterQueriesAnswer := by
  intro adr tail s hf
  exact ⟨fun hc => exec_answered hf (cntq_in (counterLookup_cntq4 s.ds adr tail) hc) rfl,
    fun hc => exec_answered hf (cntq_in (counterLookup_cntq8 s.ds adr tail) hc) rfl⟩

/-- Settles O26: an index that selects no counter is echoed alone. -/
theorem unpopulatedIndexAnswers : Obligations.UnpopulatedIndexAnswers := by
  intro adr nw tail s hf h4 h8
  exact exec_answered (i := .cntqOther adr nw tail) hf (cntq_unpopulated h4 h8) rfl

/-- Settles O27: the dispatcher's last case, and the dispatch step that concludes with it. -/
theorem unknownCommandIsSilent : Obligations.UnknownCommandIsSilent := by
  refine ⟨fun S F => dispatch_eq_noResponse S, fun adr cop f3 tail s => ?_⟩
  rw [exec_eq_dispatchStep, State.dispatchStep_noResponse rfl]
  rfl

/-- Settles O28: out of the budget the weight commands answer the error with their command byte. -/
theorem weightOutOfBudgetIsClassE : Obligations.WeightOutOfBudgetIsClassE := by
  intro adr f3 tail s hm
  exact ⟨exec_error (i := .wnet adr f3 tail) (weightReply_over hm) rfl,
    exec_error (i := .wgrs adr f3 tail) (weightReply_over hm) rfl⟩

/-- Settles O29: the same for the counter the index selects. -/
theorem counterOutOfBudgetIsClassE : Obligations.CounterOutOfBudgetIsClassE := by
  intro adr tail s
  exact ⟨fun hc => exec_error (cntq_over (counterLookup_cntq4 s.ds adr tail) hc) rfl,
    fun hc => exec_error (cntq_over (counterLookup_cntq8 s.ds adr tail) hc) rfl⟩

/-- Settles O30: the free value, cut at the length of the response, is the part that is sent. -/
theorem writeFaultSendsSomePart : Obligations.WriteFaultSendsSomePart := by
  intro i s T g hrow hf hr
  rw [dispatch_encode hrow] at hr
  refine ⟨min (Config.sentBeforeFault s.freeIdx) T.length, Nat.min_le_right _ _, ?_⟩
  rw [exec_eq_dispatchStep, State.dispatchStep_sendFails hr hf, List.take_eq_take_min]

/-- Settles O32: both dispatch steps conclude with the same reply. -/
theorem execIsDispatchStepOfFrame : Obligations.ExecIsDispatchStepOfFrame := by
  intro i s hrow
  rw [exec_eq_dispatchStep, State.dispatchStep_congr (dispatch_encode hrow s.ds).symm]

/-! ### What the commands read -/

theorem assemble_congr_addr {S R : DeviceState} (h : S.addr = R.addr) (F data : List Byte) :
    assemble S F data = assemble R F data := by
  simp only [assemble, responseBody, h]

theorem weightReply_congr_fields {S R : DeviceState} (haddr : S.addr = R.addr) (hw : S.w10 = R.w10)
    (hsettling : S.settling = R.settling) (hoverload : S.overload = R.overload) (net : Bool) (F : List Byte) :
    weightReply net S F = weightReply net R F := by
  simp only [weightReply, DeviceState.magnitude, conByte, DeviceState.negative, hw, hsettling, hoverload,
    assemble_congr_addr haddr]

theorem cntq_congr_fields {S R : DeviceState} (haddr : S.addr = R.addr) {F : List Byte}
    (hl : counterLookup S (reqNw F) = counterLookup R (reqNw F)) : cntq S F = cntq R F := by
  simp only [cntq, hl, assemble_congr_addr haddr]

/-- Settles O33: each rule, field by field of what it reads. -/
theorem commandsReadTheirFieldsOnly : Obligations.CommandsReadTheirFieldsOnly := by
  intro S R F haddr
  refine ⟨fun hcop hsn => ?serial, fun hcop hw hset hover => ?weight, fun hcop hstatus => ?status,
    fun hcop hnw h4 => ?counter4, fun hcop hnw h8 => ?counter8, fun hcop h4 h8 => ?unpopulated⟩
  case serial =>
    rw [dispatch_eq_snq S hcop, dispatch_eq_snq R hcop, snq, snq, assemble_congr_addr haddr, DeviceState.snBytes, hsn]
    rfl
  case weight =>
    rcases hcop with hcop | hcop
    · rw [dispatch_eq_wnet S hcop, dispatch_eq_wnet R hcop]
      exact weightReply_congr_fields haddr hw hset hover true F
    · rw [dispatch_eq_wgrs S hcop, dispatch_eq_wgrs R hcop]
      exact weightReply_congr_fields haddr hw hset hover false F
  case status =>
    rw [dispatch_eq_stq S hcop, dispatch_eq_stq R hcop, stq, stq, assemble_congr_addr haddr, statusByte, hstatus]
    rfl
  case counter4 =>
    rw [dispatch_eq_cntq S hcop, dispatch_eq_cntq R hcop]
    exact cntq_congr_fields haddr (by rw [hnw]; exact congrArg (fun v => some v.toNat) h4)
  case counter8 =>
    rw [dispatch_eq_cntq S hcop, dispatch_eq_cntq R hcop]
    exact cntq_congr_fields haddr (by rw [hnw]; exact congrArg (fun v => some v.toNat) h8)
  case unpopulated =>
    rw [dispatch_eq_cntq S hcop, dispatch_eq_cntq R hcop, cntq_unpopulated h4 h8, cntq_unpopulated h4 h8,
      assemble_congr_addr haddr]

/-- Concluding a dispatch step neither reads nor writes Device State and the pending inputs. -/
theorem State.conclude_with (r : Reply) (S : DeviceState) (l : List Input) (s : State) :
    ({ s with ds := S, inputs := l } : State).conclude r = { s.conclude r with ds := S, inputs := l } := by
  cases r with
  | respond T g =>
    cases hf : s.sendFails <;>
      simp [State.conclude, State.send, State.failSend, State.loadEngine, State.appendTx, State.raiseError,
        ErrorClass.reported, State.emit, hf]
  | noResponse => rfl
  | error k => rfl

/-- A dispatch step depends on Device State only through the reply, and on the pending inputs not at all. -/
theorem State.dispatchStep_with {c : DeviceState → List Byte → Reply} {F : List Byte} {S : DeviceState} {s : State}
    (h : c S F = c s.ds F) (l : List Input) :
    ({ s with ds := S, inputs := l } : State).dispatchStep c F = { s.dispatchStep c F with ds := S, inputs := l } := by
  rw [State.dispatchStep_eq, State.dispatchStep_eq, ← State.conclude_with, ← h]

theorem State.dispatchStep_withDs {c : DeviceState → List Byte → Reply} {F : List Byte} {S : DeviceState} {s : State}
    (h : c S F = c s.ds F) : ({ s with ds := S } : State).dispatchStep c F = { s.dispatchStep c F with ds := S } :=
  (State.dispatchStep_with h s.inputs).trans
    (congrArg (fun l => { s.dispatchStep c F with ds := S, inputs := l }) (State.dispatchStep_inputs c F s).symm)

theorem State.dispatchStep_withInputs (c : DeviceState → List Byte → Reply) (F : List Byte) (s : State)
    (l : List Input) :
    ({ s with inputs := l } : State).dispatchStep c F = { s.dispatchStep c F with inputs := l } :=
  (State.dispatchStep_with (S := s.ds) rfl l).trans
    (congrArg (fun S => { s.dispatchStep c F with ds := S, inputs := l }) (State.dispatchStep_ds c F s).symm)

theorem command_netMode (i : Instr) (S : DeviceState) (F : List Byte) (b : Bool) :
    Instr.command i { S with netMode := b } F = Instr.command i S F := by
  cases i <;> rfl

/-- Settles O34: no command reads `netMode`. -/
theorem netModeHasNoEffect : Obligations.NetModeHasNoEffect := by
  intro i s t b h
  rw [exec_eq_dispatchStep] at h ⊢
  cases h
  rw [State.dispatchStep_withDs (command_netMode i s.ds (encode i) b), State.dispatchStep_ds]

/-! ### Marker bytes in responses (R174) -/

theorem bcdPair_ne_mark (v j : Nat) : bcdPair v j ≠ 0xFF#8 := by
  intro h
  have hvalid := validBcd_bcdPair v j
  rw [h] at hvalid
  exact absurd hvalid (by decide)

theorem conByte_ne_mark (S : DeviceState) (net : Bool) : conByte S net ≠ 0xFF#8 := by
  intro h
  obtain ⟨-, h6, -⟩ := conByteLayout S net
  rw [h] at h6
  exact absurd h6 (by decide)

/-- Settles O37: a BCD byte has decimal nibbles and CON has bit 6 clear; for every other byte a bank that makes it `FF`
is given. -/
theorem markerBytesInResponses : Obligations.MarkerBytesInResponses := by
  refine ⟨fun m bs h => ?weight, fun c bs h => ?counter, conByte_ne_mark, fun F hcop => ?address, fun F hcop => ?serial,
    fun F hcop => ?status, fun F hcop hnw S => ?index, fun F hcop => ?crc⟩
  case weight =>
    by_cases hm : m ≤ W_MAX
    · rw [weightEncode_eq_bcdPairs hm] at h
      cases h
      simp [Ne.symm (bcdPair_ne_mark _ _)]
    · rw [weightEncode_over (Nat.not_le.mp hm)] at h
      cases h
  case counter =>
    by_cases hc : c ≤ C_MAX
    · rw [counterEncode_eq_bcdPairs hc] at h
      cases h
      simp [Ne.symm (bcdPair_ne_mark _ _)]
    · rw [counterEncode_over (Nat.not_le.mp hc)] at h
      cases h
  case address =>
    exact ⟨{ DeviceState.zero with addr := 0xFF }, _, _, (dispatch_eq_stq _ hcop).trans (assemble_eq_framed _ _ _), rfl⟩
  case serial =>
    exact ⟨{ DeviceState.zero with sn := 0xFFFFFF }, _, _, (dispatch_eq_snq _ hcop).trans (assemble_eq_framed _ _ _),
      rfl, rfl, rfl⟩
  case status =>
    exact ⟨{ DeviceState.zero with status := 0xFF }, _, _, (dispatch_eq_stq _ hcop).trans (assemble_eq_framed _ _ _),
      rfl⟩
  case index =>
    have h4 : reqNw F ≠ NW_CNT4 := by rw [hnw]; decide
    have h8 : reqNw F ≠ NW_CNT8 := by rw [hnw]; decide
    refine ⟨_, _, (dispatch_eq_cntq S hcop).trans ((cntq_unpopulated h4 h8).trans (assemble_eq_framed _ _ _)), ?_⟩
    rw [hnw]
    rfl
  case crc =>
    have hcrc : checksum [0x00#8, 0xBF#8, 0x0D#8, 0x00#8] = 0xFF#8 := by decide +kernel
    refine ⟨{ DeviceState.zero with status := 0x0D }, _, _,
      (dispatch_eq_stq _ hcop).trans (assemble_eq_framed _ _ _), ?_⟩
    rw [responseBody, hcop]
    exact congrArg some hcrc

/-! ### The frame of a command, and the in-budget answer -/

/-- Settles O40: what a dispatch step leaves of each field, whatever it concludes with. -/
theorem commandFrame : Obligations.CommandFrame := by
  intro i s t hrow h
  rw [exec_eq_dispatchStep] at h
  cases h
  refine ⟨State.dispatchStep_isOpen _ _ _, State.dispatchStep_rxbuf _ _ _, State.dispatchStep_ds _ _ _,
    State.dispatchStep_inputs _ _ _, State.dispatchStep_hs _ _ _, ?tx, ?ev, fun hnone => ?silent⟩
  case tx => exact State.dispatchStep_tx _ _ s
  case ev =>
    obtain ⟨es, hev, hlen, -⟩ := State.dispatchStep_ev (Instr.command i) (encode i) s
    exact ⟨es, hev, hlen⟩
  case silent =>
    rw [dispatch_encode hrow] at hnone
    cases hr : Instr.command i s.ds (encode i) with
    | respond T g => exact absurd hr (hnone T g)
    | noResponse =>
      rw [State.dispatchStep_noResponse hr]
      exact ⟨rfl, rfl, rfl, rfl, rfl⟩
    | error k =>
      rw [State.dispatchStep_error hr]
      exact ⟨rfl, rfl, rfl, rfl, rfl⟩

/-- Settles O41: in budget the only instruction that is not answered is NOP. -/
theorem inBudgetCommandsAnswer : Obligations.InBudgetCommandsAnswer := by
  intro i s hrow hnop hbudget hf
  obtain ⟨data, hlen, hdata⟩ | ⟨hnop', -⟩ | ⟨hover, -⟩ := command_cases hrow s.ds
  · obtain ⟨hbuilt, -⟩ := assemble_wellBuilt hlen (assemble_eq_framed s.ds (encode i) data)
    exact ⟨_, _, exec_answered hf hdata rfl, rfl, hbuilt, rfl⟩
  · exact absurd hnop' hnop
  · exact absurd hbudget hover

end Sys2Proof.Machine
end

section
/-! SUPPORT. The error class of a byte's arrival and of a completed frame, and what becomes of them
(spec/60_exceptions.md R210 to R218). -/

namespace Sys2Proof.Machine

open Sys2Proof Sys2Proof.Spec

/-! ### The class of a byte's arrival, by the detector's step -/

section
variable {cap : BufferCapacity} {S : DeviceState} {buf F : List Byte} {x : Byte}

theorem errorClassOfByte_of_drop (h : rxDetect cap buf x = ([], none)) :
    errorClassOfByte cap S buf x = some .malformedFrame := by
  rw [errorClassOfByte, (dropsMalformed_iff cap buf x).mpr h, cond_true]

theorem errorClassOfByte_of_not_drop (h : rxDetect cap buf x ≠ ([], none)) :
    errorClassOfByte cap S buf x = (rxDetect cap buf x).2.bind (errorClassOf S) := by
  rw [errorClassOfByte, Bool.eq_false_iff.mpr fun hd => h ((dropsMalformed_iff cap buf x).mp hd), cond_false]
  cases (rxDetect cap buf x).2 <;> rfl

theorem errorClassOfByte_of_frame (h : rxDetect cap buf x = ([], some F)) :
    errorClassOfByte cap S buf x = errorClassOf S F := by
  rw [errorClassOfByte_of_not_drop (by simp [h]), h]
  rfl

theorem errorClassOfByte_of_keep (h : rxDetect cap buf x = (buf ++ [x], none)) :
    errorClassOfByte cap S buf x = none := by
  rw [errorClassOfByte_of_not_drop (by simp [h]), h]
  rfl

/-- Class (a) is the detector's drop: a frame's class is never (a). -/
theorem errorClassOfByte_eq_malformed_iff :
    errorClassOfByte cap S buf x = some .malformedFrame ↔ rxDetect cap buf x = ([], none) := by
  refine ⟨fun h => ?_, errorClassOfByte_of_drop⟩
  obtain ⟨hdrop, -⟩ | ⟨-, hclass⟩ | ⟨-, hclass⟩ := errorClassOfByte_cases cap S buf x
  · exact hdrop
  · exact absurd (hclass.symm.trans h) (errorClassOf_frameLevel S _).1
  · rw [hclass] at h
    cases h

/-- The two ways of R211 to drop bytes. -/
theorem RxbufOk.rxDetect_drops_iff (hok : RxbufOk cap buf) :
    rxDetect cap buf x = ([], none) ↔
      (buf = [] ∧ x ≠ MARK) ∨
      ((buf ≠ [] ∨ x = MARK) ∧ isFrame (buf ++ [x]) = false ∧ cap.max = some (buf.length + 1)) := by
  constructor
  · intro h
    rw [hok.isFrame_concat]
    obtain ⟨hbuf, hx, -⟩ | ⟨-, -, e⟩ | ⟨hstart, hopen, hfull, -⟩ | ⟨-, -, -, e⟩ := rxDetect_cases cap buf x
    · exact .inl ⟨hbuf, hx⟩
    · simp [e] at h
    · exact .inr ⟨imp_iff_not_or.mp hstart, hopen, hfull⟩
    · simp [e] at h
  · rintro (⟨rfl, hx⟩ | ⟨hstart, hF, hfull⟩)
    · exact rxDetect_hunt cap hx
    · exact rxDetect_overflow (imp_iff_not_or.mpr hstart) (hok.isFrame_concat x ▸ hF) hfull

end

/-! ### The step that takes a byte -/

section
variable {s : State} {x : Byte} (ho : s.isOpen = true)
include ho

theorem rxByte_of_none {buf : List Byte} (hd : rxDetect Config.rxBufMax s.rxbuf x = (buf, none)) :
    rxByte x s = .next (s.setRxbuf buf) := by
  simp [rxByte, ho, hd]

theorem rxByte_of_decodeFrame {i : Instr} (hi : decodeFrame (s.rxbuf ++ [x]) = .ok i) :
    rxByte x s = exec i (s.setRxbuf []) := by
  have hd := rxDetect_of_isFrame (cap := Config.rxBufMax) (decodeFrame_ok_isFrame hi)
  simp [rxByte, ho, hd, runFrame_ok hi]

variable {rest : List Input} (hin : s.inputs = .rx x :: rest)
include hin

theorem step_rx_of_none {buf : List Byte} (hd : rxDetect Config.rxBufMax s.rxbuf x = (buf, none)) :
    step s = .next { s with inputs := rest, rxbuf := buf } :=
  (step_cons hin).trans (rxByte_of_none (s := s.setInputs rest) ho hd)

theorem step_rx_of_decodeFrame {i : Instr} (hi : decodeFrame (s.rxbuf ++ [x]) = .ok i) :
    step s = exec i { s with inputs := rest, rxbuf := [] } :=
  (step_cons hin).trans (rxByte_of_decodeFrame (s := s.setInputs rest) ho hi)

end

/-- Settles O42: the completing byte empties the buffer and runs what the frame decodes to. -/
theorem stepRunsDecodedRequest : Obligations.StepRunsDecodedRequest :=
  fun _ _ _ _ ho hin _ hi => step_rx_of_decodeFrame ho hin hi

/-! ### The class of a frame and the reply -/

theorem counterLookup_eq_none_iff (S : DeviceState) (nw : Byte) :
    counterLookup S nw = none ↔ nw ≠ NW_CNT4 ∧ nw ≠ NW_CNT8 := by
  unfold counterLookup
  split_ifs with h4 h8
  · simp [h4]
  · simp [h8]
  · simp [h4, h8]

/-- The query of an unpopulated counter index (R213). -/
def UnpopulatedQuery (F : List Byte) : Prop := reqCop F = COP_COUNTER ∧ reqNw F ≠ NW_CNT4 ∧ reqNw F ≠ NW_CNT8

/-- The class of a frame and the reply to it, side by side: one constructor per outcome of the tests of R218. -/
inductive Verdict (S : DeviceState) (F : List Byte) : Prop where
  | answered (T : List Byte) (g : CrcEngine) : errorClassOf S F = none → dispatch S F = .respond T g →
      ¬UnpopulatedQuery F → Verdict S F
  | unsupportedCommand : errorClassOf S F = some .unsupportedCommand → dispatch S F = .noResponse →
      ¬UnpopulatedQuery F → Verdict S F
  | unsupportedIndex (T : List Byte) (g : CrcEngine) : errorClassOf S F = some .unsupportedIndex →
      dispatch S F = .respond T g → UnpopulatedQuery F → Verdict S F
  | invalidNumeric : errorClassOf S F = some .invalidNumeric → dispatch S F = .error (reqCop F) →
      ¬UnpopulatedQuery F → Verdict S F

theorem weight_verdict {S : DeviceState} {F : List Byte} {net : Bool} (hd : dispatch S F = weightReply net S F)
    (hc : errorClassOf S F = if S.magnitude > W_MAX then some .invalidNumeric else none)
    (hcop : reqCop F ≠ COP_COUNTER) : Verdict S F := by
  by_cases hm : S.magnitude ≤ W_MAX
  · exact .answered _ _ (hc.trans (if_neg (Nat.not_lt.mpr hm)))
      (hd.trans ((weightReply_in hm).trans (assemble_eq_framed _ _ _))) fun h => hcop h.1
  · exact .invalidNumeric (hc.trans (if_pos (Nat.not_le.mp hm))) (hd.trans (weightReply_over (Nat.not_le.mp hm)))
      fun h => hcop h.1

theorem errorClassOf_of_lookup_none {S : DeviceState} {F : List Byte} (hcop : reqCop F = COP_COUNTER)
    (hl : counterLookup S (reqNw F) = none) : errorClassOf S F = some .unsupportedIndex := by
  simp [errorClassOf, hcop, hl, COP_SN, COP_NET, COP_GROSS, COP_STATUS, COP_COUNTER]

theorem errorClassOf_of_lookup_some {S : DeviceState} {F : List Byte} {c : Nat} (hcop : reqCop F = COP_COUNTER)
    (hl : counterLookup S (reqNw F) = some c) :
    errorClassOf S F = if c > C_MAX then some .invalidNumeric else none := by
  simp [errorClassOf, hcop, hl, COP_SN, COP_NET, COP_GROSS, COP_STATUS, COP_COUNTER]

theorem counter_verdict {S : DeviceState} {F : List Byte} (hcop : reqCop F = COP_COUNTER) : Verdict S F := by
  have hd := dispatch_eq_cntq S hcop
  cases hl : counterLookup S (reqNw F) with
  | none =>
    obtain ⟨h4, h8⟩ := (counterLookup_eq_none_iff S _).mp hl
    exact .unsupportedIndex _ _ (errorClassOf_of_lookup_none hcop hl)
      (hd.trans ((cntq_unpopulated h4 h8).trans (assemble_eq_framed _ _ _))) ⟨hcop, h4, h8⟩
  | some c =>
    have hc := errorClassOf_of_lookup_some hcop hl
    have hpop : ¬UnpopulatedQuery F := by
      rintro ⟨-, h4, h8⟩
      rw [counterLookup_unpopulated S h4 h8] at hl
      cases hl
    by_cases hm : c ≤ C_MAX
    · exact .answered _ _ (hc.trans (if_neg (Nat.not_lt.mpr hm)))
        (hd.trans ((cntq_in hl hm).trans (assemble_eq_framed _ _ _))) hpop
    · exact .invalidNumeric (hc.trans (if_pos (Nat.not_le.mp hm))) (hd.trans (cntq_over hl (Nat.not_le.mp hm))) hpop

theorem verdict (S : DeviceState) (F : List Byte) : Verdict S F := by
  by_cases hcounter : reqCop F = COP_COUNTER
  · exact counter_verdict hcounter
  have hpop : ¬UnpopulatedQuery F := fun h => hcounter h.1
  by_cases hsn : reqCop F = COP_SN
  · exact .answered _ _ (if_pos (.inl hsn)) ((dispatch_eq_snq S hsn).trans (assemble_eq_framed _ _ _)) hpop
  by_cases hstatus : reqCop F = COP_STATUS
  · exact .answered _ _ (if_pos (.inr hstatus)) ((dispatch_eq_stq S hstatus).trans (assemble_eq_framed _ _ _)) hpop
  have hc : errorClassOf S F = _ := if_neg (not_or.mpr ⟨hsn, hstatus⟩)
  by_cases hnet : reqCop F = COP_NET
  · exact weight_verdict (dispatch_eq_wnet S hnet) (hc.trans (if_pos (.inl hnet))) hcounter
  by_cases hgross : reqCop F = COP_GROSS
  · exact weight_verdict (dispatch_eq_wgrs S hgross) (hc.trans (if_pos (.inr hgross))) hcounter
  · exact .unsupportedCommand (hc.trans ((if_neg (not_or.mpr ⟨hnet, hgross⟩)).trans (if_neg hcounter)))
      (dispatch_eq_noResponse S (by simp [hsn, hnet, hgross, hstatus, hcounter])) hpop

/-- Settles O35: the class of a byte is read off the detector's step, the class of a frame off its verdict. -/
theorem errorClassDecidesReply : Obligations.ErrorClassDecidesReply := by
  refine ⟨fun cap S buf x hok => ⟨?malformed, ?unfinished, ?frame⟩, fun s x rest ho hin => ⟨?dropped, ?kept⟩,
    fun S F => ⟨fun _ => ?reply, errorClassOf_frameLevel S F⟩⟩
  case malformed => exact errorClassOfByte_eq_malformed_iff.trans hok.rxDetect_drops_iff
  case unfinished =>
    rintro ⟨hstart, hF, hroom⟩
    exact errorClassOfByte_of_keep (rxDetect_keep (imp_iff_not_or.mpr hstart)
      (hok.isFrame_concat x ▸ hF) hroom)
  case frame => exact fun hF => errorClassOfByte_of_frame (rxDetect_of_isFrame hF)
  case dropped => exact fun h => step_rx_of_none ho hin (errorClassOfByte_eq_malformed_iff.mp h)
  case kept =>
    intro hF hok hclass
    obtain ⟨-, hmal⟩ | ⟨hd, -⟩ | ⟨hd, -⟩ := errorClassOfByte_cases Config.rxBufMax s.ds s.rxbuf x
    · rw [hmal] at hclass
      cases hclass
    · obtain ⟨hframe, -⟩ := hok.completed (congrArg Prod.snd hd)
      simp [hF] at hframe
    · exact step_rx_of_none ho hin hd
  case reply =>
    have hunpop : (reqCop F = 0xC8#8 ∧ reqNw F ≠ 0x04#8 ∧ reqNw F ≠ 0x08#8) ↔ UnpopulatedQuery F := Iff.rfl
    rw [hunpop]
    cases verdict S F with
    | answered T g hc hd hq => simp [hc, hd, hq]
    | unsupportedCommand hc hd hq => simp [hc, hd, hq]
    | unsupportedIndex T g hc hd hq => simp [hc, hd, hq]
    | invalidNumeric hc hd hq => simp [hc, hd, hq]

end Sys2Proof.Machine
end

section
/-! SUPPORT. The agents' steps one by one, and what a step can write (spec/10_state.md sections 6 and 8,
spec/44_session.md, spec/60_exceptions.md sections 2 and 4). -/

namespace Sys2Proof.Machine

open Sys2Proof Sys2Proof.Spec

/-! ### The steps of the host, the timeout watch and the transport -/

/-- Settles O46: START and its failing form test `open` first. -/
theorem startWhileOpenIsRefused : Obligations.StartWhileOpenIsRefused := by
  intro s rest ho
  refine ⟨fun cfg hin => ?_, fun hin => ?_⟩
  · simp [step_cons hin, perform, hostStart, ho]
  · simp [step_cons hin, perform, transportFault, ho]

/-- Settles O47: each field of the new bank is the operand's value, or else the old one. -/
theorem updateWritesNamedFields : Obligations.UpdateWritesNamedFields := by
  intro s u rest hin
  refine ⟨s.ds.apply u, step_cons hin, ?_⟩
  simp +contextual [DeviceState.apply]

/-- Settles O52: the step is one test of the two session bits. -/
theorem timeoutOnlyWhileAwaiting : Obligations.TimeoutOnlyWhileAwaiting := by
  intro s rest hin
  have hstep : step s =
      bif s.isOpen && !s.hs then .next ((s.setInputs rest).emit .timeout) else .next (s.setInputs rest) :=
    step_cons hin
  refine ⟨fun ⟨ho, hh⟩ => ?_, fun hnot => ?_⟩
  · have hguard : (s.isOpen && !s.hs) = true := by simp [ho, hh]
    rw [hstep, hguard]
    rfl
  · have hguard : (s.isOpen && !s.hs) = false := by simpa using hnot
    rw [hstep, hguard]
    rfl

section
variable {s : State}

theorem transportFault_onOpen_of_closed (ho : s.isOpen = false) :
    transportFault .onOpen s = .next (s.emit (.error .transportFault (.kind .onOpen))) := by
  simp [transportFault, ho, State.raiseError, ErrorClass.reported]

theorem transportFault_onRead_of_open (ho : s.isOpen = true) :
    transportFault .onRead s = .next (s.emit (.error .transportFault (.kind .onRead))) := by
  simp [transportFault, ho, State.raiseError, ErrorClass.reported]

theorem transportFault_onRead_of_closed (ho : s.isOpen = false) : transportFault .onRead s = .next s := by
  simp [transportFault, ho]

end

/-- Settles O53: the two reported faults emit their event, the others only take the input or set the flag. -/
theorem openAndReadFaultsOnlyLog : Obligations.OpenAndReadFaultsOnlyLog := by
  intro s rest
  exact ⟨fun hin ho => (step_cons hin).trans (transportFault_onOpen_of_closed (s := s.setInputs rest) ho),
    fun hin ho => (step_cons hin).trans (transportFault_onRead_of_open (s := s.setInputs rest) ho),
    fun hin ho => (step_cons hin).trans (transportFault_onRead_of_closed (s := s.setInputs rest) ho),
    fun hin => step_cons hin⟩

/-- Settles O54: each step takes one byte and does nothing else. -/
theorem bytesWhileClosedAreLost : Obligations.BytesWhileClosedAreLost := by
  intro bytes rest s ho hin
  induction bytes generalizing s with
  | nil =>
    obtain rfl : s.inputs = rest := hin
    rfl
  | cons x bytes ih =>
    have hstep : step s = .next (s.setInputs (bytes.map Input.rx ++ rest)) :=
      (step_cons hin).trans (rxByte_closed (s := s.setInputs (bytes.map Input.rx ++ rest)) ho x)
    rw [List.length_cons, runSteps_succ_next hstep]
    exact ih (s.setInputs (bytes.map Input.rx ++ rest)) ho rfl

/-! ### What a step adds -/

/-- A step that runs no command: it sends nothing, logs no frame and no handshake, and sets `hs` to 0 if at all. -/
structure QuietStep (s t : State) : Prop where
  tx : t.tx = s.tx
  hs : t.hs = true → s.hs = true
  rxbuf : RxbufOk Config.rxBufMax s.rxbuf → RxbufOk Config.rxBufMax t.rxbuf
  ev : ∃ es, t.ev = s.ev ++ es ∧ rxFrames es = [] ∧ txFrames es = [] ∧ handshakes es = 0

theorem step_cases {s t : State} (h : step s = .next t) :
    QuietStep s t ∨
    ∃ x rest i, isFrame (s.rxbuf ++ [x]) = true ∧ i.rowOk = true ∧
      t = ((s.setInputs rest).setRxbuf []).dispatchStep (Instr.command i) (encode i) := by
  have hnone : ∃ es, s.ev = s.ev ++ es ∧ rxFrames es = [] ∧ txFrames es = [] ∧ handshakes es = 0 :=
    ⟨[], (List.append_nil _).symm, rfl, rfl, rfl⟩
  cases step_shape h with
  | command x rest i hin ho hF hd =>
    obtain ⟨-, hrow⟩ := decodeFrame_ok hd
    exact .inr ⟨x, rest, i, hF, hrow, rfl⟩
  | start => exact .inl ⟨rfl, by simp, fun _ => RxbufOk.nil _, hnone⟩
  | buffered x => exact .inl ⟨rfl, id, fun hok => hok.detect x, hnone⟩
  | idle | stop | update | lost | noTimeout | noReadFault | armWriteFault => exact .inl ⟨rfl, id, id, hnone⟩
  | timeout => exact .inl ⟨rfl, id, id, _, rfl, rfl, rfl, rfl⟩
  | openFault | readFault => exact .inl ⟨rfl, id, id, _, rfl, rfl, rfl, rfl⟩

/-- Settles O51: a quiet step adds events only, and a dispatch step appends to both streams. -/
theorem outputsOnlyGrow : Obligations.OutputsOnlyGrow := by
  intro s t h
  obtain hq | ⟨x, rest, i, -, -, rfl⟩ := step_cases h
  · obtain ⟨es, hev, -⟩ := hq.ev
    exact ⟨hq.tx ▸ List.prefix_rfl, hev ▸ List.prefix_append _ _⟩
  · obtain ⟨bs, htx⟩ := State.dispatchStep_tx (Instr.command i) (encode i) ((s.setInputs rest).setRxbuf [])
    obtain ⟨es, hev, -⟩ := State.dispatchStep_ev (Instr.command i) (encode i) ((s.setInputs rest).setRxbuf [])
    rw [htx, hev, List.append_assoc]
    exact ⟨List.prefix_append _ _, List.prefix_append _ _⟩

theorem handshakes_append (es fs : List Event) : handshakes (es ++ fs) = handshakes es + handshakes fs :=
  List.count_append

theorem handshakes_logEvents (F : List Byte) (hs : Bool) :
    handshakes (logEvents F hs) = if hs = false then 1 else 0 := by
  cases hs <;> rfl

/-- Settles O49: only a dispatch step logs a handshake, and it does when `hs` was 0. -/
theorem handshakeEventOncePerSession : Obligations.HandshakeEventOncePerSession := by
  intro s t h
  obtain hq | ⟨x, rest, i, -, -, rfl⟩ := step_cases h
  · have hkept : ¬(s.hs = false ∧ t.hs = true) := fun ⟨h0, h1⟩ => by simp [hq.hs h1] at h0
    obtain ⟨es, hev, -, -, hes⟩ := hq.ev
    exact ⟨by rw [hev, handshakes_append, hes, if_neg hkept], fun h0 h1 => absurd ⟨h0, h1⟩ hkept⟩
  · obtain ⟨es, hev, -, hes⟩ := State.dispatchStep_ev (Instr.command i) (encode i) ((s.setInputs rest).setRxbuf [])
    rw [hev, State.dispatchStep_hs]
    simp only [State.setRxbuf_ev, State.setInputs_ev, State.setRxbuf_hs, State.setInputs_hs, and_true]
    refine ⟨by rw [handshakes_append, handshakes_append, hes, handshakes_logEvents, add_zero], fun h0 _ => ?_⟩
    exact ⟨encode i, es, encode_isFrame i, by rw [h0]; rfl⟩

/-- Settles O50: the step's own input fixes the case of the inversion, whose fields show what it writes. -/
theorem writersOfState : Obligations.WritersOfState := by
  intro s t a rest hin h
  cases step_shape h with
  | idle hin' => simp [hin] at hin'
  | start _ _ hin' | stop _ hin' | update _ _ hin' | lost _ _ hin' | buffered _ _ hin' | command _ _ _ hin'
  | timeout _ hin' | noTimeout _ hin' | openFault _ hin' | readFault _ hin' | noReadFault _ hin'
  | armWriteFault _ hin' =>
    cases hin.symm.trans hin'
    simp

/-! ### A burst of requests -/

theorem runSteps_one (s : State) : runSteps 1 s = step s := by
  cases h : step s <;> simp [runSteps, h]

theorem runSteps_add_next {m : Nat} {s t : State} (h : runSteps m s = .next t) (n : Nat) :
    runSteps (m + n) s = runSteps n t := by
  induction m generalizing s with
  | zero =>
    cases h
    rw [Nat.zero_add]
  | succ m ih =>
    cases hstep : step s with
    | next u =>
      rw [runSteps_succ_next hstep] at h
      rw [Nat.succ_add, runSteps_succ_next hstep, ih h]
    | fault r => simp [runSteps, hstep] at h
    | refused r => simp [runSteps, hstep] at h

/-- The bytes of a frame that is not cut short and fits the buffer run its instruction at the last of them. -/
theorem runSteps_frame {s : State} {xs : List Byte} {rest : List Input} {i : Instr} (hxs : xs ≠ [])
    (hi : decodeFrame (s.rxbuf ++ xs) = .ok i)
    (hshort : ∀ k < (s.rxbuf ++ xs).length, isFrame ((s.rxbuf ++ xs).take k) = false)
    (hfits : ∀ m, Config.rxBufMax.max = some m → (s.rxbuf ++ xs).length ≤ m) (ho : s.isOpen = true)
    (hin : s.inputs = xs.map Input.rx ++ rest) :
    runSteps xs.length s = exec i { s with inputs := rest, rxbuf := [] } := by
  induction xs generalizing s with
  | nil => exact absurd rfl hxs
  | cons x xs ih =>
    by_cases hlast : xs = []
    · subst hlast
      rw [List.length_singleton, runSteps_one]
      exact step_rx_of_decodeFrame ho hin hi
    · have hd := rxDetect_keep_of_isFrame hlast (decodeFrame_ok_isFrame hi) hshort hfits
      have hassoc : s.rxbuf ++ x :: xs = s.rxbuf ++ [x] ++ xs := by simp
      rw [hassoc] at hi hshort hfits
      rw [List.length_cons, runSteps_succ_next (step_rx_of_none ho hin hd)]
      exact ih hlast hi hshort hfits ho rfl

theorem runSteps_encode {s : State} {i : Instr} {rest : List Input} (hwf : i.wellFormed = true)
    (hfits : fits Config.rxBufMax i) (ho : s.isOpen = true) (hbuf : s.rxbuf = [])
    (hin : s.inputs = (encode i).map Input.rx ++ rest) :
    runSteps (encode i).length s = exec i { s with inputs := rest } := by
  obtain ⟨hrow, huncut⟩ := Bool.and_eq_true_iff.mp hwf
  obtain ⟨a, c, f, he, -⟩ := exists_fields_of_rowOk hrow
  have hwhole : s.rxbuf ++ encode i = encode i := by rw [hbuf, List.nil_append]
  have hshort : ∀ k < (encode i).length, isFrame ((encode i).take k) = false := by
    rw [he]
    exact fun k => isFrame_take_requestFrame (Bool.not_eq_true' _ ▸ huncut)
  rw [runSteps_frame (by simp [he, requestFrame_eq_cons]) (by rw [hwhole, decodeFrame_encode hrow])
    (by rwa [hwhole]) (by rwa [hwhole]) ho hin, ← hbuf]

/-- Settles O43: each request runs at its last byte and leaves the link open, the buffer empty and the rest of the
burst as the next inputs. -/
theorem requestBurstRunsInOrder : Obligations.RequestBurstRunsInOrder := by
  intro is rest s hall ho hbuf hin
  induction is generalizing s with
  | nil =>
    obtain rfl : s.inputs = rest := hin
    rfl
  | cons i is ih =>
    obtain ⟨⟨hwf, hfits⟩, hall⟩ := List.forall_mem_cons.mp hall
    rw [List.flatMap_cons, List.map_append, List.append_assoc] at hin
    have hrun := (runSteps_encode hwf hfits ho hbuf hin).trans (exec_eq_dispatchStep i _)
    rw [List.flatMap_cons, List.length_append, runSteps_add_next hrun,
      ih _ hall (by simpa using ho) (by simpa using hbuf) (by simp), runAll, exec_eq_dispatchStep]
    simp only [State.dispatchStep_withInputs]

end Sys2Proof.Machine
end

section
/-! SUPPORT. The invariant of the machine: at launch, along every step, and what it gives (spec/10_state.md section 10,
spec/60_exceptions.md R217, spec/44_session.md R199 and R200). -/

namespace Sys2Proof.Machine

open Sys2Proof Sys2Proof.Spec

/-! ### Launch and boot -/

/-- Settles O55: the launch state's fields as they are written. -/
theorem launchStateFields : Obligations.LaunchStateFields :=
  ⟨fun _ => ⟨rfl, rfl, rfl, rfl, rfl, rfl, rfl, rfl, rfl⟩, _, rfl⟩

/-- Settles O56: the two steps one after the other; an UPDATE of all fields leaves nothing of the old bank. -/
theorem bootDutiesFixDeviceState : Obligations.BootDutiesFixDeviceState := by
  intro S R cfg rest
  have hupdate : step { State.launch R with inputs := .update (Update.all S) :: .start cfg :: rest } =
      .next { State.launch S with inputs := .start cfg :: rest } := rfl
  rw [runSteps_succ_next hupdate, runSteps_succ_next (step_start_of_closed rfl rfl)]
  rfl

theorem launch_inv (S : DeviceState) : Inv (State.launch S) where
  rxbuf := RxbufOk.nil _
  logged := fun _ hF => absurd hF List.not_mem_nil
  handshake := fun hs => absurd hs Bool.false_ne_true
  built := fun _ hT => absurd hT List.not_mem_nil
  sent := fun _ => rfl

/-- Settles O57: nothing is received, logged or sent at launch. -/
theorem launchMeetsInvariant : Obligations.LaunchMeetsInvariant := ⟨launch_inv, launch_inv _⟩

/-! ### Preservation -/

@[simp] theorem rxFrames_append (es fs : List Event) : rxFrames (es ++ fs) = rxFrames es ++ rxFrames fs :=
  List.filterMap_append

@[simp] theorem txFrames_append (es fs : List Event) : txFrames (es ++ fs) = txFrames es ++ txFrames fs :=
  List.filterMap_append

@[simp] theorem rxFrames_logEvents (F : List Byte) (hs : Bool) : rxFrames (logEvents F hs) = [F] := by
  cases hs <;> rfl

@[simp] theorem txFrames_logEvents (F : List Byte) (hs : Bool) : txFrames (logEvents F hs) = [] := by
  cases hs <;> rfl

/-- The invariant speaks of the output streams event by event, so only what a step adds has to be checked. -/
theorem Inv.extend {s t : State} {es : List Event} {bs : List Byte} (h : Inv s)
    (hrx : RxbufOk Config.rxBufMax t.rxbuf) (hev : t.ev = s.ev ++ es) (htx : t.tx = s.tx ++ bs)
    (hlogged : ∀ F ∈ rxFrames es, isFrame F = true)
    (hhs : t.hs = true → s.hs = true ∨ (rxFrames es ≠ [] ∧ 1 ≤ handshakes es))
    (hbuilt : ∀ T ∈ txFrames es, wellBuilt T = true)
    (hsent : writeFault ∉ es → bs = (txFrames es).flatten) : Inv t where
  rxbuf := hrx
  logged := fun F hF => by
    rw [hev, rxFrames_append, List.mem_append] at hF
    exact hF.elim (h.logged F) (hlogged F)
  handshake := fun ht => by
    rw [hev, rxFrames_append, handshakes_append]
    rcases hhs ht with hs | ⟨hframe, hmark⟩
    · obtain ⟨hframe, hmark⟩ := h.handshake hs
      exact ⟨List.append_ne_nil_of_left_ne_nil hframe _, by omega⟩
    · exact ⟨List.append_ne_nil_of_right_ne_nil _ hframe, by omega⟩
  built := fun T hT => by
    rw [hev, txFrames_append, List.mem_append] at hT
    exact hT.elim (h.built T) (hbuilt T)
  sent := fun hfault => by
    rw [hev, List.mem_append, not_or] at hfault
    obtain ⟨hold, hnew⟩ := hfault
    rw [htx, hev, txFrames_append, List.flatten_append, h.sent hold, hsent hnew]

theorem QuietStep.inv {s t : State} (hq : QuietStep s t) (h : Inv s) : Inv t := by
  obtain ⟨es, hev, hrx, htx, -⟩ := hq.ev
  exact h.extend (bs := []) (hq.rxbuf h.rxbuf) hev (hq.tx.trans (List.append_nil _).symm) (by simp [hrx])
    (fun ht => .inl (hq.hs ht)) (by simp [htx]) (by simp [htx])

/-- Every frame a dispatch step of an instruction can send is well built. -/
theorem command_respond_wellBuilt {i : Instr} (hrow : i.rowOk = true) {S : DeviceState} {T : List Byte} {g : CrcEngine}
    (h : Instr.command i S (encode i) = .respond T g) : wellBuilt T = true :=
  (responsesAreWellBuilt i S T g hrow ((dispatch_encode hrow S).trans h)).1

/-- What a dispatch step sends and logs after the log events: a well-built frame, whole, or a fault, or nothing sent. -/
theorem dispatchStep_adds {i : Instr} (hrow : i.rowOk = true) (s : State) :
    ∃ es bs, (s.dispatchStep (Instr.command i) (encode i)).ev = s.ev ++ (logEvents (encode i) s.hs ++ es) ∧
      (s.dispatchStep (Instr.command i) (encode i)).tx = s.tx ++ bs ∧ rxFrames es = [] ∧
      (∀ T ∈ txFrames es, wellBuilt T = true) ∧ (writeFault ∉ es → bs = (txFrames es).flatten) := by
  simp only [← List.append_assoc]
  obtain ⟨T, g, hr, -, htx, hev⟩ | ⟨T, -, -, -, htx, hev⟩ | ⟨-, htx, hev⟩ | ⟨k, -, htx, hev⟩ :=
    s.dispatchStep_cases (Instr.command i) (encode i)
  · exact ⟨_, _, hev, htx, rfl, by simpa [txFrames] using command_respond_wellBuilt hrow hr, by simp [txFrames]⟩
  · exact ⟨_, _, hev, htx, rfl, by simp [txFrames, writeFault], by simp⟩
  · exact ⟨[], [], by rw [hev, List.append_nil], by rw [htx, List.append_nil], rfl, by simp [txFrames],
      by simp [txFrames]⟩
  · exact ⟨_, [], hev, by rw [htx, List.append_nil], rfl, by simp [txFrames], by simp [txFrames]⟩

theorem Inv.dispatchStep {s : State} (h : Inv s) {i : Instr} (hrow : i.rowOk = true) :
    Inv (s.dispatchStep (Instr.command i) (encode i)) := by
  obtain ⟨es, bs, hev, htx, hrx, hbuilt, hsent⟩ := dispatchStep_adds hrow s
  refine h.extend (by simpa using h.rxbuf) hev htx ?logged ?handshake ?built ?sent
  case logged => simp [hrx, encode_isFrame]
  case handshake =>
    intro _
    cases hs : s.hs with
    | true => exact .inl rfl
    | false => exact .inr ⟨by simp, by simp [handshakes_append, handshakes_logEvents]⟩
  case built => simpa using hbuilt
  case sent =>
    intro hfault
    rw [txFrames_append, txFrames_logEvents, List.nil_append]
    exact hsent fun hmem => hfault (List.mem_append_right _ hmem)

/-- Settles O58: a quiet step adds nothing the invariant speaks of; a command logs its frame and the handshake before
its response, and starts from an empty buffer. -/
theorem stepKeepsInvariant : Obligations.StepKeepsInvariant := by
  intro s t h hstep
  obtain hq | ⟨x, rest, i, -, hrow, rfl⟩ := step_cases hstep
  · exact hq.inv h
  · have hempty : Inv ((s.setInputs rest).setRxbuf []) := ⟨RxbufOk.nil _, h.logged, h.handshake, h.built, h.sent⟩
    exact hempty.dispatchStep hrow

/-! ### What the invariant gives -/

/-- Settles O59: what a buffer that starts with the marker closes is a frame, so no step faults. -/
theorem nothingIsFatal : Obligations.NothingIsFatal := by
  refine fun s h => ⟨fun r hr => ?_, fun r => step_refused⟩
  obtain ⟨-, x, rest, -, hclosed, hF⟩ := step_fault hr
  rw [h.rxbuf.isFrame_concat, hclosed] at hF
  cases hF

theorem startsOnlyWhileClosed_step {s t : State} (h : step s = .next t)
    (hstarts : startsOnlyWhileClosed s.isOpen s.inputs = true) : startsOnlyWhileClosed t.isOpen t.inputs = true := by
  cases step_shape h with
  | idle => exact hstarts
  | start _ _ hin ho => simpa [hin, ho, startsOnlyWhileClosed] using hstarts
  | openFault _ hin ho => simpa [hin, ho, startsOnlyWhileClosed] using hstarts
  | stop _ hin | update _ _ hin | lost _ _ hin | buffered _ _ hin | command _ _ _ hin | timeout _ hin | noTimeout _ hin
  | readFault _ hin | noReadFault _ hin | armWriteFault _ hin => simpa [hin, startsOnlyWhileClosed] using hstarts

/-- A host that starts the link only while it is closed is never refused. -/
theorem exists_step_next {s : State} (h : Inv s) (hstarts : startsOnlyWhileClosed s.isOpen s.inputs = true) :
    ∃ t, step s = .next t := by
  obtain ⟨hfault, hrefused⟩ := nothingIsFatal s h
  cases hstep : step s with
  | next t => exact ⟨t, rfl⟩
  | fault r => exact absurd hstep (hfault r)
  | refused r =>
    obtain ⟨-, ho, ⟨cfg, rest, hin⟩ | ⟨rest, hin⟩⟩ := hrefused r hstep
    · simp [ho, hin, startsOnlyWhileClosed] at hstarts
    · simp [ho, hin, startsOnlyWhileClosed] at hstarts

/-- Settles O60: one step takes one input and keeps the premises for the rest. -/
theorem everyInputIsProcessed : Obligations.EveryInputIsProcessed := by
  intro s h hstarts
  induction hin : s.inputs generalizing s with
  | nil => exact ⟨s, rfl, hin, by simp [State.quiescent, hin], h⟩
  | cons a rest ih =>
    obtain ⟨t, hstep⟩ := exists_step_next h hstarts
    obtain ⟨hrest, -⟩ := writersOfState s t a rest hin hstep
    rw [List.length_cons, runSteps_succ_next hstep]
    exact ih t (stepKeepsInvariant s t h hstep) (startsOnlyWhileClosed_step hstep hstarts) hrest

end Sys2Proof.Machine
end
